-- ==== Sys2Proof/Word.lean ====
section
/-! DEFINITION. The words of the block (00_scope.md R5 table P1, R6): bytes, 16-bit addresses and data,
the 48-bit transaction word. All values are unsigned. -/

namespace Sys2Proof

/-- One data byte (DATA_BITS = 8). -/
abbrev Byte := BitVec 8

/-- A CPU address (ADDR_BITS = 16); `+` on it is modulo 2^16 (R6, D21). -/
abbrev Addr := BitVec 16

/-- A 16-bit datum: the DATA field, RDATA, an identity of a listener or of a speed requester. -/
abbrev Word16 := BitVec 16

/-- A transaction word `T[47:0]` (30_encoding.md R70; TXN_BITS = 48). -/
abbrev TxnWord := BitVec 48

end Sys2Proof
end

