-- ==== Sys2Proof/Syntax.lean ====
section
/-! DEFINITION. The syntax of the 29 transactions (30_encoding.md R70 to R74, opcode_table.json): one constructor
of `Instr` per row. Numbers of the encodings become constructors here, so the machine never sees a raw field:
switch indexes (10_state.md R18 table S2), bank ids (30_encoding.md R76), slot numbers (10_state.md R20), access
kinds (30_encoding.md R78). -/

namespace Sys2Proof

/-- A card slot, 1 to 7 (10_state.md R20: there is no `OCC[0]`; slot 0 is "reserved for system firmware"). -/
inductive Slot where
  | s1 | s2 | s3 | s4 | s5 | s6 | s7
deriving DecidableEq, Repr, Inhabited

/-- The twelve gating switches (10_state.md R18 table S2), in the order of their indexes. -/
inductive Switch where
  | ramrd | ramwrt | lcram | lcwrite | lcbank1 | auxzp
  | store80 | hires | page2 | intcxrom | slotc3rom | intc8rom
deriving DecidableEq, Repr, Inhabited

/-- The banks of 10_state.md R13 table S1. -/
inductive Bank where
  | main | aux | rom | crom | lcMain | lcAux | lc2Main | lc2Aux | blank
  | fw (n : Slot)
  | exp (n : Slot)
deriving DecidableEq, Repr, Inhabited

/-- The kinds RD and RDW accept (30_encoding.md R78: KIND 0 READ or 2 EXECUTE). -/
inductive ReadKind where
  | read | execute
deriving DecidableEq, Repr, Inhabited

/-- The table MAPQ inspects (30_encoding.md R71, format Q: TBL 0 read table, 1 write table). -/
inductive MapTable where
  | readTable | writeTable
deriving DecidableEq, Repr, Inhabited

/-- The transactions, one constructor per row of spec/opcode_table.json, in its order. WR and WRW carry no kind:
the only one they admit is WRITE (R78). SLOTSEL's operand `none` is SLOT = 0, "no slot is active" (R80 (f)). -/
inductive Instr where
  | rd (kind : ReadKind) (evt sync : Bool) (addr : Addr)
  | wr (evt sync : Bool) (addr : Addr) (value : Byte)
  | rdw (kind : ReadKind) (evt sync : Bool) (addr : Addr)
  | wrw (evt sync : Bool) (addr : Addr) (data : Word16)
  | swget (k : Switch)
  | swset (k : Switch) (v : Bool)
  | swtgl (k : Switch)
  | swrst
  | reconf
  | mapq (tbl : MapTable) (page : Byte)
  | bankrd (bank : Bank) (bpage boff : Byte)
  | bankwr (bank : Bank) (bpage boff value : Byte)
  | catt (slot : Slot)
  | cdet (slot : Slot)
  | crecfg (slot : Slot)
  | slotsel (slot : Option Slot)
  | ladd (id : Word16)
  | lrem (id : Word16)
  | tick
  | pause
  | resume
  | suspend
  | start
  | stop
  | spdreq (id : Word16)
  | spdrel (id : Word16)
  | coldrst
  | warmrst
  | romload
deriving DecidableEq, Repr, Inhabited

end Sys2Proof
end

