-- ==== Sys2Proof/Machine/Operands.lean ====
section
/-! DEFINITION. The operands of the transactions: the numbers that stand for slots, switches, banks and map entries,
the page counts of the banks, and the split of an address (00_scope.md R6, 10_state.md R13, R15, R18,
20_memory.md R54, 30_encoding.md R72, R75 to R78, R84, 42_access.md R129). -/

namespace Sys2Proof

/-- The number of a slot, 1 to 7 (10_state.md R20). -/
def Slot.number : Slot → Nat
  | .s1 => 1 | .s2 => 2 | .s3 => 3 | .s4 => 4 | .s5 => 5 | .s6 => 6 | .s7 => 7

/-- The slots in increasing order, for "for n in 1..7". -/
def Slot.all : List Slot := [.s1, .s2, .s3, .s4, .s5, .s6, .s7]

/-- The slot a number names; 0 names none. -/
def Slot.ofNumber? : Nat → Option Slot
  | 1 => some .s1 | 2 => some .s2 | 3 => some .s3 | 4 => some .s4
  | 5 => some .s5 | 6 => some .s6 | 7 => some .s7
  | _ => none

/-- ASL and the operand of SLOTSEL as a number, 0 for "no slot is active" (10_state.md R21). -/
def slotOptionNumber : Option Slot → Nat
  | none => 0
  | some n => n.number

/-- The index `k` of a switch (10_state.md R18 table S2). -/
def Switch.index : Switch → Nat
  | .ramrd => 0 | .ramwrt => 1 | .lcram => 2 | .lcwrite => 3 | .lcbank1 => 4 | .auxzp => 5
  | .store80 => 6 | .hires => 7 | .page2 => 8 | .intcxrom => 9 | .slotc3rom => 10 | .intc8rom => 11

/-- The switches in the order of their indexes. -/
def Switch.all : List Switch :=
  [.ramrd, .ramwrt, .lcram, .lcwrite, .lcbank1, .auxzp,
   .store80, .hires, .page2, .intcxrom, .slotc3rom, .intc8rom]

/-- The switch an index names; 12 to 15 name none (30_encoding.md R77). -/
def Switch.ofIndex? : Nat → Option Switch
  | 0 => some .ramrd | 1 => some .ramwrt | 2 => some .lcram | 3 => some .lcwrite
  | 4 => some .lcbank1 | 5 => some .auxzp | 6 => some .store80 | 7 => some .hires
  | 8 => some .page2 | 9 => some .intcxrom | 10 => some .slotc3rom | 11 => some .intc8rom
  | _ => none

/-- The 5-bit id of a bank (30_encoding.md R76): FW_n is 8 + n, EXP_n is 16 + n. -/
def Bank.id : Bank → Nat
  | .main => 0 | .aux => 1 | .rom => 2 | .crom => 3 | .lcMain => 4 | .lcAux => 5
  | .lc2Main => 6 | .lc2Aux => 7 | .blank => 8
  | .fw n => 8 + n.number
  | .exp n => 16 + n.number

/-- The bank a 5-bit id names; 16 and 24 to 31 are reserved (30_encoding.md R76). -/
def Bank.ofId? : Nat → Option Bank
  | 0 => some .main | 1 => some .aux | 2 => some .rom | 3 => some .crom
  | 4 => some .lcMain | 5 => some .lcAux | 6 => some .lc2Main | 7 => some .lc2Aux
  | 8 => some .blank
  | 9 => some (.fw .s1) | 10 => some (.fw .s2) | 11 => some (.fw .s3) | 12 => some (.fw .s4)
  | 13 => some (.fw .s5) | 14 => some (.fw .s6) | 15 => some (.fw .s7)
  | 17 => some (.exp .s1) | 18 => some (.exp .s2) | 19 => some (.exp .s3) | 20 => some (.exp .s4)
  | 21 => some (.exp .s5) | 22 => some (.exp .s6) | 23 => some (.exp .s7)
  | _ => none

/-- The page count of a bank (10_state.md R13 table S1, 00_scope.md R5 table P1). -/
def Bank.pages : Bank → Nat
  | .main => 0xC0 | .aux => 0xC0 | .rom => 0x30 | .crom => 0x10
  | .lcMain => 0x30 | .lcAux => 0x30 | .lc2Main => 0x10 | .lc2Aux => 0x10
  | .blank => 0x01
  | .fw _ => 0x01
  | .exp _ => 0x08

/-- The RAM-type banks: the banks whose cells COLDRST leaves at any value (70_reset_and_hazards.md R190), which are
also the only banks a write-table entry names (10_state.md R17 (I-e)). -/
def Bank.ramType : Bank → Bool
  | .main | .aux | .lcMain | .lcAux | .lc2Main | .lc2Aux => true
  | .rom | .crom | .blank | .fw _ | .exp _ => false

/-- The six origin tags (10_state.md R15). No rule reads a tag; it is fixed by the bank. -/
inductive Origin where
  | ram | auxRam | rom | languageCard | slotFirmware | blankFiller
deriving DecidableEq, Repr, Inhabited

/-- The tag of every page of a bank (10_state.md R13 table S1, D32). -/
def Bank.origin : Bank → Origin
  | .main => .ram
  | .aux => .auxRam
  | .rom | .crom | .exp _ => .rom
  | .lcMain | .lcAux | .lc2Main | .lc2Aux => .languageCard
  | .fw _ => .slotFirmware
  | .blank => .blankFiller

/-- The 3-bit code of a tag (30_encoding.md R84). -/
def Origin.code : Origin → BitVec 3
  | .ram => 0 | .auxRam => 1 | .rom => 2 | .languageCard => 3 | .slotFirmware => 4 | .blankFiller => 5

/-- A PageRef: a bank and a page index within it (10_state.md R16). -/
structure PageRef where
  bank : Bank
  page : Byte
deriving DecidableEq, Repr, Inhabited

/-- A map entry: `none` is NONE, "unmapped" (10_state.md R16). -/
abbrev MapEntry := Option PageRef

/-- The 16-bit word of a map entry (30_encoding.md R75): `0x8000 | (BANK << 8) | PAGE`, NONE is `0x0000`. -/
def MapEntry.encode : MapEntry → Word16
  | none => 0
  | some r => 0x8000#16 ||| (BitVec.ofNat 16 r.bank.id <<< 8) ||| r.page.setWidth 16

/-- The page of an address, `addr[15:8]` (00_scope.md R6). -/
def pageOf (addr : Addr) : Nat := addr.toNat / 256

/-- The offset of an address, `addr[7:0]` (00_scope.md R6). -/
def offsetOf (addr : Addr) : Byte := addr.setWidth 8

/-- The second byte's address of a word access, modulo 2^16 (42_access.md R129 (b), D21). -/
def nextAddr (addr : Addr) : Addr := addr + 1

/-- The register offset handed to a card, `addr[3:0]` (20_memory.md R54). -/
def registerOffset (addr : Addr) : BitVec 4 := addr.setWidth 4

/-- The first of the 16 I/O registers of a slot, `$C080 + 16n` (20_memory.md R54). -/
def Slot.ioBase (n : Slot) : Nat := 0xC080 + 16 * n.number

/-- The page of the I/O hole, `$C000..$C0FF` (20_memory.md R47). -/
def ioPage : Nat := 0xC0

/-- The low and the high byte of a word, little-endian (20_memory.md R49). -/
def lowByte (w : Word16) : Byte := w.setWidth 8

/-- The high byte of a word. -/
def highByte (w : Word16) : Byte := (w >>> 8).setWidth 8

/-- `hi ++ lo` (00_scope.md R6: the first operand in the more significant position). -/
def wordOf (hi lo : Byte) : Word16 := hi ++ lo

/-- `zext_16` of a byte (30_encoding.md R73). -/
def zext16 (b : Byte) : Word16 := b.setWidth 16

/-- `zext_16` of one bit (30_encoding.md R73). -/
def bit16 (b : Bool) : Word16 := if b then 1 else 0

end Sys2Proof
end

