-- ==== Sys2Proof/WellFormed.lean ====
section
/-! DEFINITION. When an instruction term is well formed. The types of Syntax.lean leave one check: a bank port operand
names a page the bank has (30_encoding.md R80 (e), second half). The other clauses of R80 speak of words that stand
for no term at all; Decode.lean refuses them by name. -/

namespace Sys2Proof

/-- 30_encoding.md R80 (e): `BPAGE` is less than the bank's page count. -/
def Instr.wellFormed : Instr → Bool
  | .bankrd b p _ => decide (p.toNat < b.pages)
  | .bankwr b p _ _ => decide (p.toNat < b.pages)
  | .rd _ _ _ _ | .wr _ _ _ _ | .rdw _ _ _ _ | .wrw _ _ _ _ => true
  | .swget _ | .swset _ _ | .swtgl _ | .swrst => true
  | .reconf | .mapq _ _ => true
  | .catt _ | .cdet _ | .crecfg _ | .slotsel _ => true
  | .ladd _ | .lrem _ => true
  | .tick | .pause | .resume | .suspend | .start | .stop | .spdreq _ | .spdrel _ => true
  | .coldrst | .warmrst | .romload => true

end Sys2Proof
end

