-- ==== Sys2Proof/Decode.lean ====
section
/-! DEFINITION. Decoding of the 48-bit transaction word, total, rejecting by name (30_encoding.md R70, R71, R74, R78,
R80), and the encoder written from the same tables E1 and E2. -/

namespace Sys2Proof

/-- Why a word is ill formed: the clauses of 30_encoding.md R80. -/
inductive DecodeError where
  /-- (a) OPC is not in table E2. -/
  | unassignedOpcode
  /-- (b) a bit that table E1 shows as 0 for the format is 1. -/
  | unusedBitSet
  /-- (c) RD or RDW with KIND 1 or 3, WR or WRW with KIND not 1. -/
  | illegalKind
  /-- (d) K in 12..15. -/
  | noSuchSwitch
  /-- (e) BANK = 16 or 24..31. -/
  | reservedBank
  /-- (e) BPAGE not less than the bank's page count. -/
  | pageOutOfRange
  /-- (f) SLOT = 0 for CATT, CDET or CRECFG. -/
  | slotZero
deriving DecidableEq, Repr, Inhabited

/-- `OPC = T[47:40]` (R70). -/
def opcField (w : TxnWord) : Byte := w.extractLsb' 40 8

/-- `MOD = T[39:32]` (R70). -/
def modField (w : TxnWord) : Byte := w.extractLsb' 32 8

/-- `ADDR = T[31:16]` (R70). -/
def addrField (w : TxnWord) : Word16 := w.extractLsb' 16 16

/-- `DATA = T[15:0]` (R70). -/
def dataField (w : TxnWord) : Word16 := w.extractLsb' 0 16

/-- Format A with a read: `MOD[7:4]` and DATA zero, KIND 0 or 2 (R71 table E1, R78). -/
def decodeReadFormat (mk : ReadKind → Bool → Bool → Addr → Instr) (mod : Byte) (addr data : Word16) :
    Except DecodeError Instr :=
  if mod.extractLsb' 4 4 ≠ 0 ∨ data ≠ 0 then .error .unusedBitSet
  else if mod.extractLsb' 0 2 = 0#2 then .ok (mk .read (mod.getLsbD 2) (mod.getLsbD 3) addr)
  else if mod.extractLsb' 0 2 = 2#2 then .ok (mk .execute (mod.getLsbD 2) (mod.getLsbD 3) addr)
  else .error .illegalKind

/-- Format A with a write: `MOD[7:4]` and the given unused DATA bits zero, KIND 1 (R71 table E1, R78). -/
def decodeWriteFormat (mk : Bool → Bool → Addr → Instr) (unusedZero : Bool) (mod : Byte) (addr : Word16) :
    Except DecodeError Instr :=
  if mod.extractLsb' 4 4 ≠ 0 ∨ unusedZero = false then .error .unusedBitSet
  else if mod.extractLsb' 0 2 = 1#2 then .ok (mk (mod.getLsbD 2) (mod.getLsbD 3) addr)
  else .error .illegalKind

/-- Format S: `MOD[7:4]`, ADDR and the given unused DATA bits zero, `K = MOD[3:0]` in 0..11 (R71 table E1). -/
def decodeSwitchFormat (mk : Switch → Instr) (unusedZero : Bool) (mod : Byte) (addr : Word16) :
    Except DecodeError Instr :=
  if mod.extractLsb' 4 4 ≠ 0 ∨ addr ≠ 0 ∨ unusedZero = false then .error .unusedBitSet
  else match Switch.ofIndex? (mod.extractLsb' 0 4).toNat with
    | some k => .ok (mk k)
    | none => .error .noSuchSwitch

/-- Format Z: MOD, ADDR and DATA zero (R71 table E1). -/
def decodeNoOperand (i : Instr) (mod : Byte) (addr data : Word16) : Except DecodeError Instr :=
  if mod ≠ 0 ∨ addr ≠ 0 ∨ data ≠ 0 then .error .unusedBitSet else .ok i

/-- Format Q: `MOD[7:1]`, `ADDR[15:8]` and DATA zero (R71 table E1). -/
def decodeQueryFormat (mod : Byte) (addr data : Word16) : Except DecodeError Instr :=
  if mod.extractLsb' 1 7 ≠ 0 ∨ addr.extractLsb' 8 8 ≠ 0 ∨ data ≠ 0 then .error .unusedBitSet
  else .ok (.mapq (if mod.getLsbD 0 then .writeTable else .readTable) (addr.extractLsb' 0 8))

/-- Format B: `MOD[7:5]` and the given unused DATA bits zero, an existing page of an existing bank
(R71 table E1, R80 (e)). -/
def decodeBankFormat (mk : Bank → Byte → Byte → Instr) (unusedZero : Bool) (mod : Byte) (addr : Word16) :
    Except DecodeError Instr :=
  if mod.extractLsb' 5 3 ≠ 0 ∨ unusedZero = false then .error .unusedBitSet
  else match Bank.ofId? (mod.extractLsb' 0 5).toNat with
    | none => .error .reservedBank
    | some b =>
      if (addr.extractLsb' 8 8).toNat < b.pages then .ok (mk b (addr.extractLsb' 8 8) (addr.extractLsb' 0 8))
      else .error .pageOutOfRange

/-- Format C: `MOD[7:3]`, ADDR and DATA zero; `SLOT = MOD[2:0]`, 0 handed on as `none` (R71 table E1). -/
def decodeSlotFormat (mk : Option Slot → Except DecodeError Instr) (mod : Byte) (addr data : Word16) :
    Except DecodeError Instr :=
  if mod.extractLsb' 3 5 ≠ 0 ∨ addr ≠ 0 ∨ data ≠ 0 then .error .unusedBitSet
  else mk (Slot.ofNumber? (mod.extractLsb' 0 3).toNat)

/-- R80 (f): CATT, CDET and CRECFG need a slot. -/
def needSlot (mk : Slot → Instr) : Option Slot → Except DecodeError Instr
  | some n => .ok (mk n)
  | none => .error .slotZero

/-- Format L: MOD and ADDR zero, `ID = DATA` (R71 table E1). -/
def decodeHandleFormat (mk : Word16 → Instr) (mod : Byte) (addr data : Word16) : Except DecodeError Instr :=
  if mod ≠ 0 ∨ addr ≠ 0 then .error .unusedBitSet else .ok (mk data)

/-- The operation-code map, table E2 (30_encoding.md R74). -/
def decodeFields (opc mod : Byte) (addr data : Word16) : Except DecodeError Instr :=
  match opc.toNat with
  | 0x01 => decodeReadFormat .rd mod addr data
  | 0x02 => decodeWriteFormat (fun e y a => .wr e y a (data.extractLsb' 0 8)) (data.extractLsb' 8 8 == 0) mod addr
  | 0x03 => decodeReadFormat .rdw mod addr data
  | 0x04 => decodeWriteFormat (fun e y a => .wrw e y a data) true mod addr
  | 0x10 => decodeSwitchFormat .swget (data == 0) mod addr
  | 0x11 => decodeSwitchFormat (fun k => .swset k (data.getLsbD 0)) (data.extractLsb' 1 15 == 0) mod addr
  | 0x12 => decodeSwitchFormat .swtgl (data == 0) mod addr
  | 0x13 => decodeNoOperand .swrst mod addr data
  | 0x20 => decodeNoOperand .reconf mod addr data
  | 0x21 => decodeQueryFormat mod addr data
  | 0x22 => decodeBankFormat .bankrd (data == 0) mod addr
  | 0x23 => decodeBankFormat (fun b p o => .bankwr b p o (data.extractLsb' 0 8)) (data.extractLsb' 8 8 == 0) mod addr
  | 0x30 => decodeSlotFormat (needSlot .catt) mod addr data
  | 0x31 => decodeSlotFormat (needSlot .cdet) mod addr data
  | 0x32 => decodeSlotFormat (needSlot .crecfg) mod addr data
  | 0x33 => decodeSlotFormat (fun n => .ok (.slotsel n)) mod addr data
  | 0x40 => decodeHandleFormat .ladd mod addr data
  | 0x41 => decodeHandleFormat .lrem mod addr data
  | 0x50 => decodeNoOperand .tick mod addr data
  | 0x51 => decodeNoOperand .pause mod addr data
  | 0x52 => decodeNoOperand .resume mod addr data
  | 0x53 => decodeNoOperand .suspend mod addr data
  | 0x54 => decodeNoOperand .start mod addr data
  | 0x55 => decodeNoOperand .stop mod addr data
  | 0x56 => decodeHandleFormat .spdreq mod addr data
  | 0x57 => decodeHandleFormat .spdrel mod addr data
  | 0x60 => decodeNoOperand .coldrst mod addr data
  | 0x61 => decodeNoOperand .warmrst mod addr data
  | 0x62 => decodeNoOperand .romload mod addr data
  | _ => .error .unassignedOpcode

/-- The decoder: the four fields of R70, then the table. -/
def decode (w : TxnWord) : Except DecodeError Instr :=
  decodeFields (opcField w) (modField w) (addrField w) (dataField w)

/-- The decoder on a word numbered as spec/opcode_table.json numbers it: bit 0 is `T[0]`. No transaction is longer
than one 48-bit word (R81), so more bits than that are no instruction (log 21). -/
def decodeTableWord (nbits w : Nat) : Option Instr :=
  if nbits ≤ 48 then
    match decode (BitVec.ofNat 48 (w % 2 ^ nbits)) with
    | .ok i => some i
    | .error _ => none
  else none

/-! ## The encoder -/

/-- The four fields put together (R70). -/
def assemble (opc mod : Byte) (addr data : Word16) : TxnWord := opc ++ mod ++ addr ++ data

/-- The KIND field of a read (R78). -/
def ReadKind.code : ReadKind → BitVec 2
  | .read => 0
  | .execute => 2

/-- MOD of format A: `SYNC = [3]`, `EVT = [2]`, `KIND = [1:0]` (R71 table E1). -/
def accessMod (kind : BitVec 2) (evt sync : Bool) : Byte :=
  (0#4 ++ BitVec.ofBool sync ++ BitVec.ofBool evt ++ kind : BitVec (4 + 1 + 1 + 2))

/-- TBL of format Q. -/
def MapTable.bit : MapTable → Bool
  | .readTable => false
  | .writeTable => true

/-- The operation code of an instruction (R74 table E2). -/
def Instr.opcode : Instr → Byte
  | .rd _ _ _ _ => 0x01 | .wr _ _ _ _ => 0x02 | .rdw _ _ _ _ => 0x03 | .wrw _ _ _ _ => 0x04
  | .swget _ => 0x10 | .swset _ _ => 0x11 | .swtgl _ => 0x12 | .swrst => 0x13
  | .reconf => 0x20 | .mapq _ _ => 0x21 | .bankrd _ _ _ => 0x22 | .bankwr _ _ _ _ => 0x23
  | .catt _ => 0x30 | .cdet _ => 0x31 | .crecfg _ => 0x32 | .slotsel _ => 0x33
  | .ladd _ => 0x40 | .lrem _ => 0x41
  | .tick => 0x50 | .pause => 0x51 | .resume => 0x52 | .suspend => 0x53 | .start => 0x54 | .stop => 0x55
  | .spdreq _ => 0x56 | .spdrel _ => 0x57
  | .coldrst => 0x60 | .warmrst => 0x61 | .romload => 0x62

/-- The MOD field of an instruction (R71 table E1). -/
def Instr.modBits : Instr → Byte
  | .rd k e y _ => accessMod k.code e y
  | .wr e y _ _ => accessMod 1 e y
  | .rdw k e y _ => accessMod k.code e y
  | .wrw e y _ _ => accessMod 1 e y
  | .swget k => BitVec.ofNat 8 k.index
  | .swset k _ => BitVec.ofNat 8 k.index
  | .swtgl k => BitVec.ofNat 8 k.index
  | .mapq t _ => (BitVec.ofBool t.bit).setWidth 8
  | .bankrd b _ _ => BitVec.ofNat 8 b.id
  | .bankwr b _ _ _ => BitVec.ofNat 8 b.id
  | .catt n => BitVec.ofNat 8 n.number
  | .cdet n => BitVec.ofNat 8 n.number
  | .crecfg n => BitVec.ofNat 8 n.number
  | .slotsel n => BitVec.ofNat 8 (slotOptionNumber n)
  | .swrst | .reconf | .ladd _ | .lrem _ => 0
  | .tick | .pause | .resume | .suspend | .start | .stop | .spdreq _ | .spdrel _ => 0
  | .coldrst | .warmrst | .romload => 0

/-- The ADDR field of an instruction (R71 table E1). -/
def Instr.addrBits : Instr → Word16
  | .rd _ _ _ a => a
  | .wr _ _ a _ => a
  | .rdw _ _ _ a => a
  | .wrw _ _ a _ => a
  | .mapq _ p => 0#8 ++ p
  | .bankrd _ p o => p ++ o
  | .bankwr _ p o _ => p ++ o
  | .swget _ | .swset _ _ | .swtgl _ | .swrst | .reconf => 0
  | .catt _ | .cdet _ | .crecfg _ | .slotsel _ | .ladd _ | .lrem _ => 0
  | .tick | .pause | .resume | .suspend | .start | .stop | .spdreq _ | .spdrel _ => 0
  | .coldrst | .warmrst | .romload => 0

/-- The DATA field of an instruction (R71 table E1). -/
def Instr.dataBits : Instr → Word16
  | .wr _ _ _ v => 0#8 ++ v
  | .wrw _ _ _ d => d
  | .swset _ v => bit16 v
  | .bankwr _ _ _ v => 0#8 ++ v
  | .ladd id => id
  | .lrem id => id
  | .spdreq id => id
  | .spdrel id => id
  | .rd _ _ _ _ | .rdw _ _ _ _ | .swget _ | .swtgl _ | .swrst | .reconf | .mapq _ _ | .bankrd _ _ _ => 0
  | .catt _ | .cdet _ | .crecfg _ | .slotsel _ => 0
  | .tick | .pause | .resume | .suspend | .start | .stop => 0
  | .coldrst | .warmrst | .romload => 0

/-- The word of an instruction. -/
def encode (i : Instr) : TxnWord := assemble i.opcode i.modBits i.addrBits i.dataBits

/-! ## Pseudo-transactions (30_encoding.md R83): shorthand that expands to one transaction -/

/-- `SWON name`. -/
def swOn (k : Switch) : Instr := .swset k true

/-- `SWOFF name`. -/
def swOff (k : Switch) : Instr := .swset k false

/-- `FETCH $addr`, `RD.x $addr`. -/
def fetchAt (a : Addr) : Instr := .rd .execute false false a

/-- `PEEK $addr`, a read "with events disabled". -/
def peek (a : Addr) : Instr := .rd .read false false a

/-- `POKE $addr, $vv`. -/
def poke (a : Addr) (v : Byte) : Instr := .wr false false a v

end Sys2Proof
end

