-- ==== Sys2Proof/Machine/Data.lean ====
section
/-! DEFINITION. The data the state is made of, beside memory and the map: per-slot vectors, the switch registry, listener
records, cards, tick steps, responses, events, parameters and the environment's side of the port. All plain data. -/

namespace Sys2Proof.Machine

/-- One value per slot 1..7 (10_state.md R20: a "fixed-size array ... indexed 1..7"). -/
structure PerSlot (α : Type) where
  s1 : α
  s2 : α
  s3 : α
  s4 : α
  s5 : α
  s6 : α
  s7 : α
deriving DecidableEq, Repr, Inhabited

/-- The value of a slot. -/
def PerSlot.get {α : Type} (v : PerSlot α) : Slot → α
  | .s1 => v.s1 | .s2 => v.s2 | .s3 => v.s3 | .s4 => v.s4 | .s5 => v.s5 | .s6 => v.s6 | .s7 => v.s7

/-- Replace the value of a slot. -/
def PerSlot.set {α : Type} (v : PerSlot α) (n : Slot) (x : α) : PerSlot α :=
  match n with
  | .s1 => { v with s1 := x } | .s2 => { v with s2 := x } | .s3 => { v with s3 := x } | .s4 => { v with s4 := x }
  | .s5 => { v with s5 := x } | .s6 => { v with s6 := x } | .s7 => { v with s7 := x }

/-- The vector with the value `f n` at each slot `n`. -/
def PerSlot.tabulate {α : Type} (f : Slot → α) : PerSlot α :=
  ⟨f .s1, f .s2, f .s3, f .s4, f .s5, f .s6, f .s7⟩

/-- All bits 0; as a set of slots, the empty set. -/
def PerSlot.allOff : PerSlot Bool := PerSlot.tabulate fun _ => false

/-- The soft-switch registry: the current value of each latch (10_state.md R18 table S2, R19). -/
structure Switches where
  ramrd : Bool
  ramwrt : Bool
  lcram : Bool
  lcwrite : Bool
  lcbank1 : Bool
  auxzp : Bool
  store80 : Bool
  hires : Bool
  page2 : Bool
  intcxrom : Bool
  slotc3rom : Bool
  intc8rom : Bool
deriving DecidableEq, Repr, Inhabited

/-- `SW[k]` (00_scope.md R7). -/
def Switches.get (v : Switches) : Switch → Bool
  | .ramrd => v.ramrd | .ramwrt => v.ramwrt | .lcram => v.lcram | .lcwrite => v.lcwrite
  | .lcbank1 => v.lcbank1 | .auxzp => v.auxzp | .store80 => v.store80 | .hires => v.hires
  | .page2 => v.page2 | .intcxrom => v.intcxrom | .slotc3rom => v.slotc3rom | .intc8rom => v.intc8rom

/-- `SW[k] <- x` (00_scope.md R7). -/
def Switches.set (v : Switches) (k : Switch) (x : Bool) : Switches :=
  match k with
  | .ramrd => { v with ramrd := x } | .ramwrt => { v with ramwrt := x }
  | .lcram => { v with lcram := x } | .lcwrite => { v with lcwrite := x }
  | .lcbank1 => { v with lcbank1 := x } | .auxzp => { v with auxzp := x }
  | .store80 => { v with store80 := x } | .hires => { v with hires := x }
  | .page2 => { v with page2 := x } | .intcxrom => { v with intcxrom := x }
  | .slotc3rom => { v with slotc3rom := x } | .intc8rom => { v with intc8rom := x }

/-- All twelve latches off. -/
def Switches.allOff : Switches :=
  ⟨false, false, false, false, false, false, false, false, false, false, false, false⟩

/-- The vector `SWV[11:0]`, `SWV[k] = SW[k]` (30_encoding.md R77). -/
def Switches.vector (v : Switches) : BitVec 12 :=
  (BitVec.ofBool v.intc8rom ++ BitVec.ofBool v.slotc3rom ++ BitVec.ofBool v.intcxrom ++ BitVec.ofBool v.page2 ++
    BitVec.ofBool v.hires ++ BitVec.ofBool v.store80 ++ BitVec.ofBool v.auxzp ++ BitVec.ofBool v.lcbank1 ++
    BitVec.ofBool v.lcwrite ++ BitVec.ofBool v.lcram ++ BitVec.ofBool v.ramwrt ++ BitVec.ofBool v.ramrd :
    BitVec (1 + 1 + 1 + 1 + 1 + 1 + 1 + 1 + 1 + 1 + 1 + 1))

/-- The registry a vector stands for (30_encoding.md R77). -/
def Switches.ofVector (x : BitVec 12) : Switches :=
  ⟨x.getLsbD 0, x.getLsbD 1, x.getLsbD 2, x.getLsbD 3, x.getLsbD 4, x.getLsbD 5,
   x.getLsbD 6, x.getLsbD 7, x.getLsbD 8, x.getLsbD 9, x.getLsbD 10, x.getLsbD 11⟩

/-- The kind of an access as the dispatcher sees it (43_dispatch.md R135). ANY is a filter value only (R78). -/
inductive AccessKind where
  | read | write | execute
deriving DecidableEq, Repr, Inhabited

/-- The kind of a read access (30_encoding.md R78). -/
def accessKindOf : ReadKind → AccessKind
  | .read => .read
  | .execute => .execute

/-- A listener's event-type filter (10_state.md R22). -/
inductive TypeFilter where
  | read | write | execute | any
deriving DecidableEq, Repr, Inhabited

/-- A listener's scope (10_state.md R22). -/
inductive Scope where
  | address (a : Addr)
  | range (lo hi : Addr)
  | any
deriving DecidableEq, Repr, Inhabited

/-- What a callback's replacement value is computed from, for a callback that is given as data: the event's bytes, the
switches (40_switches.md R95: "a function of the switches") and constants. -/
inductive ValueExpr where
  | cur
  | old
  | addrLow
  | lit (b : Byte)
  | add (x y : ValueExpr)
  | mul (x y : ValueExpr)
  | and (x y : ValueExpr)
  | or (x y : ValueExpr)
  | xor (x y : ValueExpr)
  | ifSwitch (k : Switch) (x y : ValueExpr)
deriving DecidableEq, Repr, Inhabited

/-- A device's part of a callback (43_dispatch.md R138, 40_switches.md R95): a fixed finite sequence of nested
operations followed by a replacement value, or an oracle whose answers are free values. -/
inductive Device where
  | program (ops : List Instr) (value : ValueExpr)
  | oracle
deriving DecidableEq, Repr, Inhabited

/-- What the block itself adds around a listener's device: nothing, or what a card's firmware-access listener
(44_cards.md R155) or expansion-ROM listener (R156) does. `cardIo` is a card's I/O-register listener (R154). -/
inductive ListenerRole where
  | plain
  | cardIo (n : Slot)
  | cardFirmware (n : Slot)
  | cardExpansion (n : Slot)
deriving DecidableEq, Repr, Inhabited

/-- A listener record (10_state.md R22, 30_encoding.md R79). `owner` is the slot of a card's listener, `none` for 0. -/
structure Listener where
  id : Word16
  scope : Scope
  tfilter : TypeFilter
  vmask : BitVec 256
  owner : Option Slot
  role : ListenerRole
  device : Device
deriving DecidableEq, Repr, Inhabited

/-- What a callback is called with (43_dispatch.md R135, R138), and by which listener. `offset` is `addr[3:0]`, what a
card's I/O-register listener is handed (44_cards.md R154). -/
structure Call where
  listener : Word16
  kind : AccessKind
  addr : Addr
  offset : BitVec 4
  old : Byte
  cur : Byte
deriving DecidableEq, Repr, Inhabited

/-- What an oracle callback answers: the replacement byte and the nested operations (43_dispatch.md R138). -/
structure DeviceAnswer where
  value : Byte
  ops : List Instr
deriving DecidableEq, Repr, Inhabited

/-- The card presented for a slot (44_cards.md R150, R157, R158; 45_scheduler.md R163): its images `CardImage(n)`, the
answers `init_ok(n)` and `suspends_with_cpu(n)`, and the device parts of its three listeners. -/
structure Card where
  fw : Vector Byte 256
  exp : Vector Byte 2048
  initOk : Bool
  suspendsWithCpu : Bool
  io : Device
  firmware : Device
  expansion : Device
deriving DecidableEq, Repr, Inhabited

/-- One access of a tick step: RD, WR, RDW or WRW with SYNC = 0 (45_scheduler.md R160). -/
inductive Access where
  | rd (kind : ReadKind) (evt : Bool) (addr : Addr)
  | wr (evt : Bool) (addr : Addr) (value : Byte)
  | rdw (kind : ReadKind) (evt : Bool) (addr : Addr)
  | wrw (evt : Bool) (addr : Addr) (data : Word16)
deriving DecidableEq, Repr, Inhabited

/-- One environment step of TICK: a finite sequence of accesses, and where the step faults, if it does, the number of
accesses made before it (45_scheduler.md R168). -/
structure TickStep where
  accesses : List Access
  faultAfter : Option Nat
deriving DecidableEq, Repr, Inhabited

/-- The environment steps of one TICK (45_scheduler.md R160): the CPU, video, the card of each slot, and the
miscellaneous devices in their registration order. -/
structure TickPlan where
  cpu : TickStep
  video : TickStep
  cards : PerSlot TickStep
  misc : List TickStep
deriving DecidableEq, Repr, Inhabited

/-- What is ticked (45_scheduler.md R160). -/
inductive TickTarget where
  | cpu
  | video
  | card (n : Slot)
  | misc (i : Nat)
deriving DecidableEq, Repr, Inhabited

/-- The environment's side of the port: every out-of-band operand and oracle answer (10_state.md R27,
30_encoding.md R70): the table of listener records, the card presented for each slot, the ROM stream, the tick steps. -/
structure Environment where
  records : List Listener
  cards : PerSlot Card
  romStream : List Byte
  ticks : TickPlan
deriving DecidableEq, Repr, Inhabited

/-- The implementation parameters of 00_scope.md R5 table P1 that a model takes as arguments (10_state.md R27). -/
structure Params where
  blankFill : Byte
  floatBus : Byte
  clockDivisor : Nat
  swDefault : Switches
  switchBinding : List Listener
  warmClearsAsl : Bool
deriving DecidableEq, Repr, Inhabited

/-- STATUS (30_encoding.md R73: 0 = OK, 1 = REFUSED). -/
inductive Status where
  | ok | refused
deriving DecidableEq, Repr, Inhabited

/-- The response of a transaction (30_encoding.md R73). -/
structure Response where
  status : Status
  rdata : Word16
deriving DecidableEq, Repr, Inhabited

/-- What the outside sees of a transaction besides its response (70_reset_and_hazards.md R195): each call made to a
callback, each nested operation and its response, each tick step, each access of a tick step and its RDATA. -/
inductive Event where
  | call (c : Call)
  | nested (i : Instr) (r : Response)
  | tick (t : TickTarget)
  | access (a : Access) (rdata : Word16)
deriving DecidableEq, Repr, Inhabited

/-- A presented transaction: its word and its out-of-band operands (30_encoding.md R70). -/
structure Request where
  word : TxnWord
  env : Environment
deriving DecidableEq, Repr, Inhabited

/-- The scheduler's state RUN (10_state.md R25). -/
inductive RunState where
  | stopped | running | paused
deriving DecidableEq, Repr, Inhabited

/-- The value of a data expression for a call, under the switches as the callback's nested operations left them. -/
def ValueExpr.eval (c : Call) (sw : Switches) : ValueExpr → Byte
  | .cur => c.cur
  | .old => c.old
  | .addrLow => offsetOf c.addr
  | .lit b => b
  | .add x y => x.eval c sw + y.eval c sw
  | .mul x y => x.eval c sw * y.eval c sw
  | .and x y => x.eval c sw &&& y.eval c sw
  | .or x y => x.eval c sw ||| y.eval c sw
  | .xor x y => x.eval c sw ^^^ y.eval c sw
  | .ifSwitch k x y => if sw.get k then x.eval c sw else y.eval c sw

/-- The accesses a tick step makes: all of them, or those before its fault (45_scheduler.md R168: "the accesses already
made kept"). -/
def TickStep.made (t : TickStep) : List Access :=
  match t.faultAfter with
  | none => t.accesses
  | some k => t.accesses.take k

/-- The response as 17 bits, STATUS above RDATA (30_encoding.md R73). -/
def Response.word (r : Response) : BitVec 17 :=
  match r.status with
  | .ok => 0#1 ++ r.rdata
  | .refused => 1#1 ++ r.rdata

end Sys2Proof.Machine
end

