-- ==== Sys2Proof/Config.lean ====
section
/-! DEFINITION. What the spec leaves to an implementation or to the environment (00_scope.md R5 table P1, 10_state.md
R27, 93_implementation_defined.md), as constants with no body: no proof can see their values. The parameters of table
P1 are also a field of State, so a statement about every state is one about every value of them (log 4). -/

namespace Sys2Proof

open Sys2Proof.Machine

/-- BLANK_FILL (D14), the value State.reset carries. -/
opaque Config.blankFill : Byte

/-- FLOAT_BUS (D15), the value State.reset carries. -/
opaque Config.floatBus : Byte

/-- CLOCK_DIVISOR less one (D28: an integer, at least 1). -/
opaque Config.clockDivisorLessOne : Nat

/-- The environment's side of the port before anything has been presented (log 2). -/
opaque Config.environment : Environment

/-- The byte of a cell that nothing has written since it last became unspecified (U1): "any value, fixed per cell for
the run". First argument: which power-on or cold reset; second: the cell number (log 6, 7). -/
opaque Config.unwrittenByte : Nat → Nat → Byte

/-- The byte a bank port read of a card bank of an empty slot gives (U2): any value at each read (log 8). -/
opaque Config.emptySlotByte : Nat → Byte

/-- What an oracle callback answers to a call (43_dispatch.md R138, U13). The first argument differs from call to call,
so a device with a state of its own is covered (log 9). -/
opaque Config.deviceAnswer : Nat → Call → DeviceAnswer

/-- The parameters State.reset carries: OPEN ones from the constants above; SW_DEFAULT all 0 (D4), SwitchBinding empty
(D31), WARM_CLEARS_ASL true (D13) as the spec decides their defaults (log 5). -/
def Config.params : Params where
  blankFill := Config.blankFill
  floatBus := Config.floatBus
  clockDivisor := Config.clockDivisorLessOne + 1
  swDefault := Switches.allOff
  switchBinding := []
  warmClearsAsl := true

end Sys2Proof
end

