-- ==== Sys2Proof/Machine/Index.lean ====
section
/-! DEFINITION. The listener index (10_state.md R24, 43_dispatch.md R139), which listeners are relevant (R136), and the
three listeners of a card (44_cards.md R154 to R156, R158). -/

namespace Sys2Proof.Machine

/-- The lowest address of a scope (R139; R79: ANY is 0x0000..0xFFFF). -/
def Scope.lo : Scope → Nat
  | .address a => a.toNat
  | .range lo _ => lo.toNat
  | .any => 0x0000

/-- The highest address of a scope (R139). -/
def Scope.hi : Scope → Nat
  | .address a => a.toNat
  | .range _ hi => hi.toNat
  | .any => 0xFFFF

/-- The scope test (R136 (a)): an "inclusive address range". -/
def Scope.covers (s : Scope) (addr : Addr) : Bool := decide (s.lo ≤ addr.toNat ∧ addr.toNat ≤ s.hi)

/-- `l` is filed in `PIDX[p]` (R139): `p` in `lo[15:8] .. hi[15:8]`. -/
def filedAtPage (l : Listener) (p : Nat) : Bool := decide (l.scope.lo / 256 ≤ p ∧ p ≤ l.scope.hi / 256)

/-- `l` is filed in `RIDX[r]` (R139): the scope reaches register `$C000 + r`. -/
def filedAtRegister (l : Listener) (r : Nat) : Bool :=
  decide (l.scope.lo ≤ 0xC0FF ∧ 0xC000 ≤ l.scope.hi ∧
    max l.scope.lo 0xC000 % 256 ≤ r ∧ r ≤ min l.scope.hi 0xC0FF % 256)

/-- `PIDX` rebuilt from the registry, each bucket in registration order (R139). -/
def pageIndexOf (lreg : List Listener) : List (List Listener) :=
  (List.range 256).map fun p => lreg.filter fun l => filedAtPage l p

/-- `RIDX` rebuilt from the registry, each bucket in registration order (R139). -/
def registerIndexOf (lreg : List Listener) : List (List Listener) :=
  (List.range 256).map fun r => lreg.filter fun l => filedAtRegister l r

/-- One bucket of an index. -/
def bucketAt (idx : List (List Listener)) (i : Nat) : List Listener := idx.getD i []

/-- The type test (R136 (b)); EXECUTE is not READ (D20). -/
def TypeFilter.admits : TypeFilter → AccessKind → Bool
  | .any, _ => true
  | .read, .read => true
  | .write, .write => true
  | .execute, .execute => true
  | .read, .write => false
  | .read, .execute => false
  | .write, .read => false
  | .write, .execute => false
  | .execute, .read => false
  | .execute, .write => false

/-- `RELEVANT(l, kind, addr, cur)` (R136): scope, type, and the value filter on the chain's current value. -/
def relevant (l : Listener) (kind : AccessKind) (addr : Addr) (cur : Byte) : Bool :=
  l.scope.covers addr && l.tfilter.admits kind && l.vmask.getLsbD cur.toNat

/-- A record is one only when `lo <= hi` (10_state.md R22, 43_dispatch.md R140). -/
def Scope.valid (s : Scope) : Bool := decide (s.lo ≤ s.hi)

/-- The record an id names in the environment's table, if it names one (43_dispatch.md R140, 30_encoding.md R79). -/
def Environment.record? (e : Environment) (id : Word16) : Option Listener :=
  e.records.find? fun l => l.id == id && l.scope.valid

/-- `LREG` holds a listener of this id. -/
def registered (lreg : List Listener) (id : Word16) : Bool := lreg.any fun l => l.id == id

/-- The three ids reserved to a slot, `0xFF00 + 16 n + k` (44_cards.md R158). -/
def cardListenerId (n : Slot) (k : Nat) : Word16 := BitVec.ofNat 16 (0xFF00 + 16 * n.number + k)

/-- The I/O-register listener of slot n (44_cards.md R154, 20_memory.md R54). -/
def cardIoListener (n : Slot) (c : Card) : Listener :=
  ⟨cardListenerId n 0, .range (BitVec.ofNat 16 n.ioBase) (BitVec.ofNat 16 (n.ioBase + 15)), .any,
    BitVec.allOnes 256, some n, .cardIo n, c.io⟩

/-- The firmware-access listener of slot n (44_cards.md R155). -/
def cardFirmwareListener (n : Slot) (c : Card) : Listener :=
  ⟨cardListenerId n 1,
    .range (BitVec.ofNat 16 (0xC000 + 256 * n.number)) (BitVec.ofNat 16 (0xC0FF + 256 * n.number)), .any,
    BitVec.allOnes 256, some n, .cardFirmware n, c.firmware⟩

/-- The expansion-ROM listener of slot n (44_cards.md R156). -/
def cardExpansionListener (n : Slot) (c : Card) : Listener :=
  ⟨cardListenerId n 2, .range 0xC800 0xCFFF, .any, BitVec.allOnes 256, some n, .cardExpansion n, c.expansion⟩

/-- The three listeners a card registers, in the order of 44_cards.md R150. -/
def cardListeners (n : Slot) (c : Card) : List Listener :=
  [cardIoListener n c, cardFirmwareListener n c, cardExpansionListener n c]

/-- A listener that CDET removes: one of the three of slot n (44_cards.md R151). -/
def isCardListener (n : Slot) (l : Listener) : Bool :=
  l.owner == some n &&
    (l.id == cardListenerId n 0 || l.id == cardListenerId n 1 || l.id == cardListenerId n 2)

/-! ## The record layout (30_encoding.md R79). The callback is not encodable. -/

/-- `scope_tag`: 0 ADDRESS, 1 RANGE, 2 ANY. -/
def Scope.tag : Scope → BitVec 2
  | .address _ => 0
  | .range _ _ => 1
  | .any => 2

/-- `tfilter` in the encoding of R78. -/
def TypeFilter.code : TypeFilter → BitVec 2
  | .read => 0
  | .write => 1
  | .execute => 2
  | .any => 3

/-- `id`, `scope_tag`, `lo`, `hi`, `tfilter`, `vmask`, `owner`, the first in the highest place. -/
def Listener.recordBits (l : Listener) : BitVec 311 :=
  (l.id ++ l.scope.tag ++ BitVec.ofNat 16 l.scope.lo ++ BitVec.ofNat 16 l.scope.hi ++ l.tfilter.code ++ l.vmask ++
    BitVec.ofNat 3 (slotOptionNumber l.owner) : BitVec (16 + 2 + 16 + 16 + 2 + 256 + 3))

/-! ## The speed-request multiset (10_state.md R25), held sorted so that equal multisets are equal lists -/

/-- Add one occurrence (45_scheduler.md R166). -/
def addRequest (id : Word16) : List Word16 → List Word16
  | [] => [id]
  | x :: xs => if id.toNat ≤ x.toNat then id :: x :: xs else x :: addRequest id xs

/-- Remove one occurrence, if there is one (45_scheduler.md R167). -/
def removeRequest (id : Word16) (xs : List Word16) : List Word16 := xs.erase id

end Sys2Proof.Machine
end

