-- ==== Sys2Proof/Machine/Memory.lean ====
section
/-! DEFINITION. The bank space (20_memory.md R40 (S-b)): the cells of the banks of 10_state.md R13 table S1, as one
list of (cell number, byte) pairs, cell numbers strictly rising. -/

namespace Sys2Proof.Machine

/-- The stored cells. -/
abbrev Memory := List Host.Cell

/-- What the list gives for a cell it does not hold: no stored byte. What such a cell READS as is a free value
(`State.cell`, log 6). -/
def Memory.unlisted : Option Byte := none

/-- The canonical form: cell numbers strictly rising. No entry can equal `Memory.unlisted`. -/
abbrev Memory.wf (m : Memory) : Prop := m.Pairwise fun x y => x.1 < y.1

/-- The byte stored at a cell number. -/
def Memory.read? : Memory → Nat → Option Byte
  | [], _ => Memory.unlisted
  | (k, v) :: m, a => if a = k then some v else Memory.read? m a

/-- Store one byte. -/
def Memory.write : Memory → Nat → Byte → Memory
  | [], a, v => [(a, v)]
  | (k, w) :: m, a, v =>
    if a < k then (a, v) :: (k, w) :: m
    else if a = k then (a, v) :: m
    else (k, w) :: Memory.write m a v

/-- The cells that hold the given bytes at consecutive cell numbers. -/
def Memory.cellsFrom : Nat → List Byte → Memory
  | _, [] => []
  | a, b :: bs => (a, b) :: Memory.cellsFrom (a + 1) bs

/-- Store bytes at consecutive cell numbers from `a` on. -/
def Memory.writeBlock (m : Memory) (a : Nat) (bs : List Byte) : Memory :=
  m.filter (fun c => decide (c.1 < a)) ++ Memory.cellsFrom a bs ++ m.filter (fun c => decide (a + bs.length ≤ c.1))

/-- Forget the stored bytes of the cells whose number satisfies `p`. -/
def Memory.forget (m : Memory) (p : Nat → Bool) : Memory := m.filter fun c => !p c.1

/-- The number of cell `Bank[b][page][off]`: the bits BANK, BPAGE, BOFF of format B in this order
(30_encoding.md R71, R72). -/
def cellNumber (b : Bank) (page off : Byte) : Nat := b.id * 65536 + page.toNat * 256 + off.toNat

/-- The bank id of a cell number. -/
def cellBankId (a : Nat) : Nat := a / 65536

/-- A cell that can hold a stored byte: its bank id names a bank other than BLANK, whose page is constant, and its page
is one of the bank's (10_state.md R13 table S1). -/
def cellStorable (a : Nat) : Bool :=
  match Bank.ofId? (cellBankId a) with
  | some b => decide (b ≠ .blank ∧ a / 256 % 256 < b.pages)
  | none => false

/-- The cell is of a RAM-type bank. -/
def cellIsRam (a : Nat) : Bool :=
  match Bank.ofId? (cellBankId a) with
  | some b => b.ramType
  | none => false

end Sys2Proof.Machine
end

