-- ==== Sys2Proof/Machine/Reconf.lean ====
section
/-! DEFINITION. The reconfiguration engine (41_mmu.md R100 to R112): the pre-clear and the nine overlay steps, in the
order R112 makes normative, and the two tables they leave. The engine reads the switches, OCC and ASL only (R100); it
is one pure function, and its intermediate tables are not state (R101). -/

namespace Sys2Proof.Machine

/-- The two tables while they are being rebuilt, by page number. -/
structure MapDraft where
  rt : Nat → MapEntry
  wt : Nat → MapEntry

/-- The inputs of RECONF (R100). -/
structure MapInputs where
  sw : Switches
  occ : PerSlot Bool
  asl : Option Slot
deriving DecidableEq, Repr, Inhabited

/-- `for p in lo..hi: t[p] <- f p`. -/
def overlay (lo hi : Nat) (f : Nat → MapEntry) (t : Nat → MapEntry) : Nat → MapEntry :=
  fun p => if lo ≤ p ∧ p ≤ hi then f p else t p

/-- The entry `(b, i)`. -/
def entry (b : Bank) (i : Nat) : MapEntry := some ⟨b, BitVec.ofNat 8 i⟩

/-- AUX when the switch is on, else MAIN. -/
def auxIf (on : Bool) : Bank := if on then .aux else .main

/-- `L` of R100. -/
def lcBank (sw : Switches) : Bank := if sw.auxzp then .lcAux else .lcMain

/-- `L2` of R100. -/
def lc2Bank (sw : Switches) : Bank := if sw.auxzp then .lc2Aux else .lc2Main

/-- R102, the pre-clear. -/
def mapPreclear : MapDraft := ⟨fun _ => none, fun _ => none⟩

/-- R103, step 1: RAM below the I/O hole. -/
def mapStep1 (x : MapInputs) (d : MapDraft) : MapDraft :=
  ⟨overlay 0x00 0xBF (fun p => entry (auxIf x.sw.ramrd) p) d.rt,
   overlay 0x00 0xBF (fun p => entry (auxIf x.sw.ramwrt) p) d.wt⟩

/-- R104, step 2: ROM. -/
def mapStep2 (d : MapDraft) : MapDraft :=
  { d with rt := overlay 0xD0 0xFF (fun p => entry .rom (p - 0xD0)) d.rt }

/-- R105, step 3: the I/O hole is never writable. -/
def mapStep3 (d : MapDraft) : MapDraft :=
  { d with wt := overlay 0xC0 0xC0 (fun _ => none) d.wt }

/-- The language-card overlay of one table, shared by steps 4 and 5 (R106, R107). -/
def lcOverlay (sw : Switches) (t : Nat → MapEntry) : Nat → MapEntry :=
  let t' := overlay 0xD0 0xFF (fun p => entry (lcBank sw) (p - 0xD0)) t
  if sw.lcbank1 then t' else overlay 0xD0 0xDF (fun p => entry (lc2Bank sw) (p - 0xD0)) t'

/-- R106, step 4: language card for reads. -/
def mapStep4 (x : MapInputs) (d : MapDraft) : MapDraft :=
  if x.sw.lcram then { d with rt := lcOverlay x.sw d.rt } else d

/-- R107, step 5: language card for writes. -/
def mapStep5 (x : MapInputs) (d : MapDraft) : MapDraft :=
  if x.sw.lcwrite then { d with wt := lcOverlay x.sw d.wt }
  else { d with wt := overlay 0xD0 0xFF (fun _ => none) d.wt }

/-- R108, step 6: the 80-column-store override. -/
def mapStep6 (x : MapInputs) (d : MapDraft) : MapDraft :=
  if x.sw.store80 then
    let f := fun p => entry (auxIf x.sw.page2) p
    let d' : MapDraft := ⟨overlay 0x04 0x07 f d.rt, overlay 0x04 0x07 f d.wt⟩
    if x.sw.hires then ⟨overlay 0x20 0x3F f d'.rt, overlay 0x20 0x3F f d'.wt⟩ else d'
  else d

/-- R109, step 7: zero page and stack. -/
def mapStep7 (x : MapInputs) (d : MapDraft) : MapDraft :=
  let f := fun p => entry (auxIf x.sw.auxzp) p
  ⟨overlay 0x00 0x01 f d.rt, overlay 0x00 0x01 f d.wt⟩

/-- The firmware window of slot n in the slot branch of step 8 (R110). -/
def firmwareOverlay (x : MapInputs) (t : Nat → MapEntry) (n : Slot) : Nat → MapEntry :=
  overlay (0xC0 + n.number) (0xC0 + n.number)
    (fun _ => if x.occ.get n then entry (.fw n) 0 else entry .blank 0) t

/-- What the expansion window shows in the slot branch of step 8 (R110): the card of the active slot, if one is there. -/
def expansionEntry (x : MapInputs) (p : Nat) : MapEntry :=
  match x.asl with
  | some n => if x.occ.get n then entry (.exp n) (p - 0xC8) else entry .blank 0
  | none => entry .blank 0

/-- R110, step 8: `$C100..$CFFF`. -/
def mapStep8 (x : MapInputs) (d : MapDraft) : MapDraft :=
  if x.sw.intcxrom then
    { d with rt := overlay 0xC1 0xCF (fun p => entry .crom (p - 0xC0)) d.rt }
  else
    let t1 := Slot.all.foldl (firmwareOverlay x) d.rt
    let t2 := overlay 0xC8 0xCF (expansionEntry x) t1
    let t3 := if x.sw.slotc3rom then t2 else overlay 0xC3 0xC3 (fun _ => entry .crom 3) t2
    let t4 := if x.sw.intc8rom then overlay 0xC8 0xCF (fun p => entry .crom (p - 0xC0)) t3 else t3
    { d with rt := t4 }

/-- R111, step 9: the I/O-hole placeholder. -/
def mapStep9 (d : MapDraft) : MapDraft :=
  { d with rt := overlay 0xC0 0xC0 (fun _ => entry .blank 0) d.rt }

/-- `reconfigure_active_map(switches, cards, active_slot)` (R100): the pre-clear, then steps 1 to 9 in order (R112). -/
def reconfigure (x : MapInputs) : MapDraft :=
  mapStep9 (mapStep8 x (mapStep7 x (mapStep6 x (mapStep5 x (mapStep4 x (mapStep3 (mapStep2 (mapStep1 x mapPreclear))))))))

/-- A table of 256 entries. -/
def tabulate (f : Nat → MapEntry) : List MapEntry := (List.range 256).map f

/-- The read table RECONF leaves. -/
def readTableOf (x : MapInputs) : List MapEntry := tabulate (reconfigure x).rt

/-- The write table RECONF leaves. -/
def writeTableOf (x : MapInputs) : List MapEntry := tabulate (reconfigure x).wt

/-- Entry `p` of a table. -/
def tableEntry (t : List MapEntry) (p : Nat) : MapEntry := t.getD p none

end Sys2Proof.Machine
end

