-- ==== Sys2Proof/Machine/State.lean ====
section
/-! DEFINITION. The state of the block (10_state.md), its reset value (10_state.md R28, 70_reset_and_hazards.md R190,
R193), and the reasons a step could stop: the spec gives none. -/

namespace Sys2Proof.Machine

/-- There is no fault: "No transaction raises an exception" (60_exceptions.md R170). The type has no constructor; nobody
raises anything. Safe (log 29). -/
inductive Fault where
deriving DecidableEq, Repr

/-- Why the model would give an instruction no meaning. A transaction the SPEC refuses is not this: it answers
STATUS = REFUSED and the machine goes on (30_encoding.md R73), a next state. -/
inductive Refusal where
  /-- Raised by an arm of exec for an instruction without a meaning. No arm uses it. Safe. -/
  | notModelled (mnemonic : String)
deriving DecidableEq, Repr

/-- The state. INVENTORY.md gives each field's rule and reset value. -/
structure State where
  /-- The bank cells (10_state.md R13). -/
  mem : Memory
  /-- RT (10_state.md R16). -/
  rt : List MapEntry
  /-- WT (10_state.md R16). -/
  wt : List MapEntry
  /-- SW[0..11] (10_state.md R18, R19). -/
  sw : Switches
  /-- OCC[1..7] (10_state.md R20). -/
  occ : PerSlot Bool
  /-- ASL (10_state.md R21); `none` is 0. -/
  asl : Option Slot
  /-- LREG (10_state.md R23). -/
  lreg : List Listener
  /-- PIDX (10_state.md R24). -/
  pidx : List (List Listener)
  /-- RIDX (10_state.md R24). -/
  ridx : List (List Listener)
  /-- RUN (10_state.md R25). -/
  run : RunState
  /-- DIVCNT (10_state.md R25). -/
  divcnt : Nat
  /-- SPEEDSET (10_state.md R25), a multiset held sorted (log 20). -/
  speedset : List Word16
  /-- SUSPSET (10_state.md R25). -/
  suspset : PerSlot Bool
  /-- CARDRUN[1..7] (10_state.md R25). -/
  cardrun : PerSlot Bool
  /-- BOOTED (10_state.md R26 (d)). -/
  booted : Bool
  /-- A dispatch is in progress (70_reset_and_hazards.md R204; log 14). -/
  inDispatch : Bool
  /-- The response of the last transaction (30_encoding.md R73), an output. -/
  response : Response
  /-- What the outside saw of the last transaction (70_reset_and_hazards.md R195), an output. -/
  events : List Event
  /-- The transactions presented and not yet executed (20_memory.md R56; log 1). -/
  pending : List Request
  /-- The implementation parameters (00_scope.md R5); never written (10_state.md R27). -/
  params : Params
  /-- The environment's side of the port for the transaction being executed (10_state.md R27; log 2). -/
  env : Environment
  /-- The model's own: which contents the RAM-type banks took at the last cold reset (log 7). -/
  ramEpoch : Nat
  /-- The model's own: a counter that free values of one call are applied to (log 7). -/
  fresh : Nat
deriving DecidableEq, Repr

/-- The inputs of RECONF in a state whose switches, slots and latch are at reset (10_state.md R28). -/
def resetInputs : MapInputs := ⟨Config.params.swDefault, PerSlot.allOff, none⟩

/-- The machine right after COLDRST (10_state.md R28, 70_reset_and_hazards.md R190, R193). -/
def State.reset : State where
  mem := []
  rt := readTableOf resetInputs
  wt := writeTableOf resetInputs
  sw := Config.params.swDefault
  occ := PerSlot.allOff
  asl := none
  lreg := Config.params.switchBinding
  pidx := pageIndexOf Config.params.switchBinding
  ridx := registerIndexOf Config.params.switchBinding
  run := .stopped
  divcnt := Config.params.clockDivisor
  speedset := []
  suspset := PerSlot.allOff
  cardrun := PerSlot.allOff
  booted := true
  inDispatch := false
  response := ⟨.ok, 0⟩
  events := []
  pending := []
  params := Config.params
  env := Config.environment
  ramEpoch := 0
  fresh := 0

end Sys2Proof.Machine
end

