-- ==== Sys2Proof/Machine/Flags.lean ====
section
/-! DEFINITION. The block has no flags (10_state.md R12). Its one status bit is STATUS, an output (30_encoding.md R73);
this file computes it: whether a transaction is accepted or refused, from the complete list of refusals
(60_exceptions.md R175). The order of the tests is not observable (R177 (c)). -/

namespace Sys2Proof.Machine

/-- R175 (3), R204: may be issued from inside a dispatch. An access with SYNC = 0 is "not refused but is not a move the
model's environment has" (`isNestedMove`). -/
def allowedInDispatch : Instr → Bool
  | .swget _ | .swset _ _ | .swtgl _ | .slotsel _ | .bankrd _ _ _ | .spdreq _ | .spdrel _ => true
  | .rd _ _ sync _ | .wr _ sync _ _ | .rdw _ _ sync _ | .wrw _ sync _ _ => !sync
  | .swrst | .reconf | .mapq _ _ | .bankwr _ _ _ _ => false
  | .catt _ | .cdet _ | .crecfg _ | .ladd _ | .lrem _ => false
  | .tick | .pause | .resume | .suspend | .start | .stop => false
  | .coldrst | .warmrst | .romload => false

/-- R138, U7: what a callback can issue at all: everything but an access with SYNC = 0. -/
def isNestedMove : Instr → Bool
  | .rd _ _ sync _ | .wr _ sync _ _ | .rdw _ _ sync _ | .wrw _ sync _ _ => sync
  | .swget _ | .swset _ _ | .swtgl _ | .swrst | .reconf | .mapq _ _ | .bankrd _ _ _ | .bankwr _ _ _ _ => true
  | .catt _ | .cdet _ | .crecfg _ | .slotsel _ | .ladd _ | .lrem _ => true
  | .tick | .pause | .resume | .suspend | .start | .stop | .spdreq _ | .spdrel _ => true
  | .coldrst | .warmrst | .romload => true

/-- The structural mutations (70_reset_and_hazards.md R200). CRECFG is not one: it suspends for itself. -/
def isStructural : Instr → Bool
  | .swset _ _ | .swtgl _ | .swrst | .reconf | .slotsel _ => true
  | .ladd _ | .lrem _ | .catt _ | .cdet _ | .warmrst => true
  | .rd _ _ _ _ | .wr _ _ _ _ | .rdw _ _ _ _ | .wrw _ _ _ _ | .swget _ => false
  | .mapq _ _ | .bankrd _ _ _ | .bankwr _ _ _ _ | .crecfg _ => false
  | .tick | .pause | .resume | .suspend | .start | .stop | .spdreq _ | .spdrel _ => false
  | .coldrst | .romload => false

/-- R175 (2), R194: accepted before the first reset. -/
def allowedBeforeReset : Instr → Bool
  | .coldrst | .romload | .bankwr _ _ _ _ => true
  | .rd _ _ _ _ | .wr _ _ _ _ | .rdw _ _ _ _ | .wrw _ _ _ _ => false
  | .swget _ | .swset _ _ | .swtgl _ | .swrst | .reconf | .mapq _ _ | .bankrd _ _ _ => false
  | .catt _ | .cdet _ | .crecfg _ | .slotsel _ | .ladd _ | .lrem _ => false
  | .tick | .pause | .resume | .suspend | .start | .stop | .spdreq _ | .spdrel _ => false
  | .warmrst => false

/-- The quiescence precondition of 70_reset_and_hazards.md R200: (a) inside a dispatch, or (b) RUN is not Running;
(c) is a case of (a). -/
def quiescent (s : State) : Bool := s.inDispatch || decide (s.run ≠ .running)

/-- R175 (5): the precondition of the transaction's own rule. -/
def ownPrecondition (s : State) : Instr → Bool
  | .ladd id => (s.env.record? id).isSome
  | .catt n => !s.occ.get n
  | .cdet n => s.occ.get n
  | .crecfg n => s.occ.get n
  | .bankwr b _ _ _ => decide (b ≠ .blank)
  | .tick => decide (s.run = .running)
  | .resume => decide (s.run ≠ .stopped)
  | .start => decide (s.run ≠ .paused)
  | .romload => decide (s.env.romStream.length = 0x4000) && (!s.booted || decide (s.run = .stopped))
  | .rd _ _ _ _ | .wr _ _ _ _ | .rdw _ _ _ _ | .wrw _ _ _ _ => true
  | .swget _ | .swset _ _ | .swtgl _ | .swrst | .reconf | .mapq _ _ | .bankrd _ _ _ => true
  | .slotsel _ | .lrem _ | .pause | .suspend | .stop | .spdreq _ | .spdrel _ => true
  | .coldrst | .warmrst => true

/-- The transaction is accepted: none of the cases (1) to (5) of R175 applies. -/
def accepted (i : Instr) (s : State) : Bool :=
  i.wellFormed
    && (s.booted || allowedBeforeReset i)
    && (!s.inDispatch || allowedInDispatch i)
    && (!isStructural i || quiescent s)
    && ownPrecondition s i

/-- The response of an accepted transaction (R73). -/
def okResponse (rdata : Word16) : Response := ⟨.ok, rdata⟩

/-- The response of a refused transaction (R73): `STATUS = 1`, `RDATA = 0`. -/
def refusedResponse : Response := ⟨.refused, 0⟩

end Sys2Proof.Machine
end

