-- ==== Sys2Proof/Machine/Ops.lean ====
section
/-! DEFINITION. The named operations over the state that the transactions share: bank cells, RECONF and the index rebuild
as procedures, SUSPEND and RESUME as procedures, what a transaction does with its response, and the effects of the
seven transactions a listener callback may issue (43_dispatch.md R138). The block takes no exception and returns from
none (60_exceptions.md R170, R178, R179); its one abnormal outcome is the refusal, `perform`'s second branch. -/

namespace Sys2Proof.Machine

/-! ## Bank cells -/

/-- Which contents a bank's unwritten cells have: the last cold reset's for the RAM-type banks, the power-on ones for
the others, which COLDRST leaves alone (70_reset_and_hazards.md R190). -/
def State.epochOf (s : State) (b : Bank) : Nat := if b.ramType then s.ramEpoch else 0

/-- `Bank[b][page][off]` (00_scope.md R7). BLANK is BLANK_FILL always (10_state.md R13); a cell without a stored byte
holds a free value, fixed until it becomes unspecified again (U1). -/
def State.cell (s : State) (b : Bank) (page off : Byte) : Byte :=
  if b = .blank then s.params.blankFill
  else match s.mem.read? (cellNumber b page off) with
    | some v => v
    | none => Config.unwrittenByte (s.epochOf b) (cellNumber b page off)

/-- `Bank[b][page][off] <- v`. The blank page is constant (10_state.md R13). -/
def State.storeCell (s : State) (b : Bank) (page off v : Byte) : State :=
  { s with mem := if b = .blank then s.mem else s.mem.write (cellNumber b page off) v }

/-- Store bytes from cell `(b, page, 0)` on. -/
def State.storeBlock (s : State) (b : Bank) (page : Byte) (bytes : List Byte) : State :=
  { s with mem := s.mem.writeBlock (cellNumber b page 0) bytes }

/-! ## The map and the index -/

/-- The inputs RECONF reads in a state (41_mmu.md R100). -/
def State.mapInputs (s : State) : MapInputs := ⟨s.sw, s.occ, s.asl⟩

/-- `RECONF()` (41_mmu.md R100): both tables from scratch, nothing else. -/
def State.reconf (s : State) : State :=
  { s with rt := readTableOf s.mapInputs, wt := writeTableOf s.mapInputs }

/-- The rebuild of the listener index (43_dispatch.md R139). -/
def State.reindex (s : State) : State :=
  { s with pidx := pageIndexOf s.lreg, ridx := registerIndexOf s.lreg }

/-- `RT[p]`. -/
def State.readEntry (s : State) (p : Nat) : MapEntry := tableEntry s.rt p

/-- `WT[p]`. -/
def State.writeEntry (s : State) (p : Nat) : MapEntry := tableEntry s.wt p

/-- The bucket of an address (43_dispatch.md R135): RIDX in the I/O hole, PIDX elsewhere. -/
def State.bucket (s : State) (addr : Addr) : List Listener :=
  if pageOf addr = ioPage then bucketAt s.ridx (offsetOf addr).toNat else bucketAt s.pidx (pageOf addr)

/-! ## Single-field updates -/

/-- Replace the switch registry. -/
def State.setSwitches (s : State) (v : Switches) : State := { s with sw := v }

/-- Replace ASL. -/
def State.setAsl (s : State) (n : Option Slot) : State := { s with asl := n }

/-- Replace LREG. -/
def State.setListeners (s : State) (ls : List Listener) : State := { s with lreg := ls }

/-- Replace `OCC[n]` and `CARDRUN[n]`. -/
def State.setCard (s : State) (n : Slot) (occupied running : Bool) : State :=
  { s with occ := s.occ.set n occupied, cardrun := s.cardrun.set n running }

/-- Put slot n in or out of SUSPSET. -/
def State.setSuspended (s : State) (n : Slot) (b : Bool) : State := { s with suspset := s.suspset.set n b }

/-- Replace RUN. -/
def State.setRun (s : State) (r : RunState) : State := { s with run := r }

/-- Replace DIVCNT. -/
def State.setDivcnt (s : State) (d : Nat) : State := { s with divcnt := d }

/-- Replace SPEEDSET. -/
def State.setSpeed (s : State) (xs : List Word16) : State := { s with speedset := xs }

/-- Enter or leave a dispatch (70_reset_and_hazards.md R204). -/
def State.setDispatch (s : State) (b : Bool) : State := { s with inDispatch := b }

/-- Append to what the outside sees of this transaction (70_reset_and_hazards.md R195). -/
def State.log (s : State) (e : Event) : State := { s with events := s.events ++ [e] }

/-- A new transaction begins. -/
def State.clearEvents (s : State) : State := { s with events := [] }

/-- Put a response out. -/
def State.respond (s : State) (r : Response) : State := { s with response := r }

/-- The free values of one call are used up. -/
def State.nextFresh (s : State) : State := { s with fresh := s.fresh + 1 }

/-! ## SUSPEND and RESUME as procedures -/

/-- A card SUSPEND pauses (45_scheduler.md R163). -/
def State.willSuspend (s : State) (n : Slot) : Bool :=
  s.occ.get n && (s.env.cards.get n).suspendsWithCpu && s.cardrun.get n

/-- The state change of PAUSE (45_scheduler.md R161). -/
def State.pauseRun (s : State) : State := if s.run = .running then s.setRun .paused else s

/-- PAUSE's answer, the machine "was running". -/
def State.wasRunning (s : State) : Bool := decide (s.run = .running)

/-- The state change of SUSPEND (45_scheduler.md R163): PAUSE, then the cards; recorded sets accumulate. -/
def State.suspendRun (s : State) : State :=
  { s.pauseRun with
    cardrun := PerSlot.tabulate fun n => s.cardrun.get n && !s.willSuspend n
    suspset := PerSlot.tabulate fun n => s.suspset.get n || s.willSuspend n }

/-- The state change of RESUME (45_scheduler.md R162). -/
def State.resumeRun (s : State) : State :=
  if s.run = .paused then
    { s with
      run := .running
      cardrun := PerSlot.tabulate fun n => s.suspset.get n || s.cardrun.get n
      suspset := PerSlot.allOff }
  else s

/-- `SYNCWRAP(s, body)` (42_access.md R127). -/
def syncWrap {α : Type} (sync : Bool) (body : State → State × α) (s : State) : State × α :=
  if sync then
    let r := body s.suspendRun
    (if s.wasRunning then r.1.resumeRun else r.1, r.2)
  else body s

/-! ## Transactions -/

/-- Carry out a transaction (30_encoding.md R73, 60_exceptions.md R175): accepted, it has its effect and answers OK with
its data; refused, it changes nothing and answers REFUSED. -/
def perform (i : Instr) (body : State → State × Word16) (s : State) : State × Response :=
  if accepted i s then
    let r := body s
    (r.1, okResponse r.2)
  else (s, refusedResponse)

/-- A transaction presented at the port: one indivisible step (20_memory.md R56) that ends with its response. It never
stops the machine (60_exceptions.md R170). -/
def transact (i : Instr) (body : State → State × Word16) (s : State) : Host.Outcome State Fault Refusal :=
  let r := perform i body s.clearEvents
  .next (r.1.respond r.2)

/-- A word that is no transaction (30_encoding.md R80, 60_exceptions.md R175 (1)): refused, nothing changes. -/
def refuseWord (s : State) : Host.Outcome State Fault Refusal := .next (s.clearEvents.respond refusedResponse)

/-! ## The effects of the transactions a callback may issue -/

/-- SWGET (40_switches.md R90). -/
def swgetBody (k : Switch) (s : State) : State × Word16 := (s, bit16 (s.sw.get k))

/-- SWSET (40_switches.md R91). -/
def swsetBody (k : Switch) (v : Bool) (s : State) : State × Word16 := ((s.setSwitches (s.sw.set k v)).reconf, 0)

/-- SWTGL (40_switches.md R92). -/
def swtglBody (k : Switch) (s : State) : State × Word16 := ((s.setSwitches (s.sw.set k (!s.sw.get k))).reconf, 0)

/-- SLOTSEL (44_cards.md R153). -/
def slotselBody (n : Option Slot) (s : State) : State × Word16 := ((s.setAsl n).reconf, 0)

/-- The slot whose card owns a bank (10_state.md R13 table S1). -/
def Bank.slot? : Bank → Option Slot
  | .fw n => some n
  | .exp n => some n
  | .main | .aux | .rom | .crom | .lcMain | .lcAux | .lc2Main | .lc2Aux | .blank => none

/-- The bank belongs to a slot that has no card, so what it holds is unspecified (U2). -/
def State.bankAbsent (s : State) (b : Bank) : Bool :=
  match Bank.slot? b with
  | some n => !s.occ.get n
  | none => false

/-- BANKRD (41_mmu.md R117). -/
def bankrdBody (b : Bank) (page off : Byte) (s : State) : State × Word16 :=
  if s.bankAbsent b then (s.nextFresh, zext16 (Config.emptySlotByte s.fresh))
  else (s, zext16 (s.cell b page off))

/-- SPDREQ (45_scheduler.md R166). -/
def spdreqBody (id : Word16) (s : State) : State × Word16 := (s.setSpeed (addRequest id s.speedset), 0)

/-- SPDREL (45_scheduler.md R167). -/
def spdrelBody (id : Word16) (s : State) : State × Word16 := (s.setSpeed (removeRequest id s.speedset), 0)

/-- A transaction issued from inside a dispatch (43_dispatch.md R138, 70_reset_and_hazards.md R204): the seven allowed
ones run as their own rules say; every other one is refused and changes nothing. -/
def runNested (i : Instr) (s : State) : State × Response :=
  match i with
  | .swget k => perform (.swget k) (swgetBody k) s
  | .swset k v => perform (.swset k v) (swsetBody k v) s
  | .swtgl k => perform (.swtgl k) (swtglBody k) s
  | .slotsel n => perform (.slotsel n) (slotselBody n) s
  | .bankrd b p o => perform (.bankrd b p o) (bankrdBody b p o) s
  | .spdreq id => perform (.spdreq id) (spdreqBody id) s
  | .spdrel id => perform (.spdrel id) (spdrelBody id) s
  | .rd _ _ _ _ | .wr _ _ _ _ | .rdw _ _ _ _ | .wrw _ _ _ _ | .swrst | .reconf | .mapq _ _ | .bankwr _ _ _ _
  | .catt _ | .cdet _ | .crecfg _ | .ladd _ | .lrem _ | .tick | .pause | .resume | .suspend | .start | .stop
  | .coldrst | .warmrst | .romload => (s, refusedResponse)

/-- The request at the head of the port is taken: its word is being executed and its out-of-band operands are the
environment's side (30_encoding.md R70). -/
def State.take (s : State) (r : Request) (rest : List Request) : State := { s with pending := rest, env := r.env }

end Sys2Proof.Machine
end

