-- ==== Sys2Proof/Machine/Listeners.lean ====
section
/-! DEFINITION. The listener chain (43_dispatch.md R135 to R138): DISPATCH, the callbacks of cards (44_cards.md R154 to
R156), and the two transactions LADD and LREM (43_dispatch.md R140, R141). -/

namespace Sys2Proof.Machine

/-- The nested operations of a callback, in order, each with its response (43_dispatch.md R138). A move the environment
does not have (U7) is not made. -/
def runMoves : List Instr → State → State
  | [], s => s
  | i :: is, s =>
    if isNestedMove i then
      let r := runNested i s
      runMoves is (r.1.log (.nested i r.2))
    else runMoves is s

/-- A device's part of a callback: its replacement value and its nested operations (43_dispatch.md R138). -/
def runDevice (d : Device) (c : Call) (s : State) : State × Byte :=
  match d with
  | .program ops value =>
    let t := runMoves ops s
    (t, value.eval c t.sw)
  | .oracle =>
    let a := Config.deviceAnswer s.fresh c
    (runMoves a.ops s.nextFresh, a.value)

/-- The expansion-ROM listener's gate (44_cards.md R156): the active slot is this one and INTC8ROM is off. -/
def expansionGate (n : Slot) (s : State) : Bool := decide (s.asl = some n) && !s.sw.intc8rom

/-- A callback (43_dispatch.md R138; 44_cards.md R154, R155, R156). -/
def callback (l : Listener) (c : Call) (s : State) : State × Byte :=
  match l.role with
  | .plain => runDevice l.device c s
  | .cardIo _ => runDevice l.device c s
  | .cardFirmware n =>
    if c.kind = .write then runDevice l.device c s
    else runDevice l.device c (runMoves [.slotsel (some n)] s)
  | .cardExpansion n => if expansionGate n s then runDevice l.device c s else (s, c.cur)

/-- What a listener of an access is called with. -/
def callOf (l : Listener) (kind : AccessKind) (addr : Addr) (old cur : Byte) : Call :=
  ⟨l.id, kind, addr, registerOffset addr, old, cur⟩

/-- The walk along a bucket (43_dispatch.md R135, R137): each relevant listener in order, each seeing the value the
previous one returned and the same old byte. -/
def runChain (kind : AccessKind) (addr : Addr) (old : Byte) : List Listener → Byte → State → State × Byte
  | [], cur, s => (s, cur)
  | l :: ls, cur, s =>
    if relevant l kind addr cur then
      let c := callOf l kind addr old cur
      let r := callback l c (s.log (.call c))
      runChain kind addr old ls r.2 r.1
    else runChain kind addr old ls cur s

/-- `DISPATCH(kind, addr, old, new)` (43_dispatch.md R135). The bucket is fixed at the start. -/
def dispatch (kind : AccessKind) (addr : Addr) (old new : Byte) (s : State) : State × Byte :=
  let r := runChain kind addr old (s.bucket addr) new (s.setDispatch true)
  (r.1.setDispatch s.inDispatch, r.2)

/-- LADD (43_dispatch.md R140): "a no-op if an equal listener is already registered", then the rebuild. -/
def laddBody (id : Word16) (s : State) : State × Word16 :=
  let ls := if registered s.lreg id then s.lreg else s.lreg ++ (s.env.record? id).toList
  ((s.setListeners ls).reindex, 0)

/-- LADD. -/
def execLadd (id : Word16) (s : State) : Host.Outcome State Fault Refusal := transact (.ladd id) (laddBody id) s

/-- LREM (43_dispatch.md R141). -/
def lremBody (id : Word16) (s : State) : State × Word16 :=
  ((s.setListeners (s.lreg.filter fun l => !(l.id == id))).reindex, 0)

/-- LREM. -/
def execLrem (id : Word16) (s : State) : Host.Outcome State Fault Refusal := transact (.lrem id) (lremBody id) s

end Sys2Proof.Machine
end

