-- ==== Sys2Proof/Machine/Access.lean ====
section
/-! DEFINITION. The access transactions RD, WR, RDW, WRW (42_access.md R120 to R129). -/

namespace Sys2Proof.Machine

/-- The byte a read fetches through a map entry (20_memory.md R43, R46). -/
def State.fetchByte (s : State) (e : MapEntry) (off : Byte) : Byte :=
  match e with
  | none => s.params.floatBus
  | some r => s.cell r.bank r.page off

/-- The old byte of a write (42_access.md R121): of the destination cell, else of the read-mapped cell, else FLOAT_BUS. -/
def State.oldByte (s : State) (w e : MapEntry) (off : Byte) : Byte :=
  match w with
  | some r => s.cell r.bank r.page off
  | none => s.fetchByte e off

/-- The store of a write through the entry sampled before the chain (42_access.md R121, R124). -/
def State.storeThrough (s : State) (w : MapEntry) (off v : Byte) : State :=
  match w with
  | some r => s.storeCell r.bank r.page off v
  | none => s

/-- The whole of RD (42_access.md R120). -/
def readByte (kind : ReadKind) (evt sync : Bool) (addr : Addr) (s : State) : State × Byte :=
  let v := s.fetchByte (s.readEntry (pageOf addr)) (offsetOf addr)
  if pageOf addr = ioPage then
    if (s.bucket addr).isEmpty then (s, s.params.floatBus)
    else syncWrap sync (dispatch (accessKindOf kind) addr v v) s
  else if evt || !(s.bucket addr).isEmpty then
    syncWrap sync (dispatch (accessKindOf kind) addr v v) s
  else (s, v)

/-- The whole of WR (42_access.md R121). The second component is the old byte. -/
def writeByte (evt sync : Bool) (addr : Addr) (value : Byte) (s : State) : State × Byte :=
  let w := s.writeEntry (pageOf addr)
  let old := s.oldByte w (s.readEntry (pageOf addr)) (offsetOf addr)
  let runs := !(s.bucket addr).isEmpty || (decide (pageOf addr ≠ ioPage) && evt)
  let r := if runs then syncWrap sync (dispatch .write addr old value) s else (s, value)
  (r.1.storeThrough w (offsetOf addr) r.2, old)

/-- RD's effect and RDATA. -/
def rdBody (kind : ReadKind) (evt sync : Bool) (addr : Addr) (s : State) : State × Word16 :=
  let r := readByte kind evt sync addr s
  (r.1, zext16 r.2)

/-- WR's effect and RDATA, the old byte. -/
def wrBody (evt sync : Bool) (addr : Addr) (value : Byte) (s : State) : State × Word16 :=
  let r := writeByte evt sync addr value s
  (r.1, zext16 r.2)

/-- RDW (42_access.md R122): two reads, the low byte first. -/
def rdwBody (kind : ReadKind) (evt sync : Bool) (addr : Addr) (s : State) : State × Word16 :=
  let lo := readByte kind evt sync addr s
  let hi := readByte kind evt sync (nextAddr addr) lo.1
  (hi.1, wordOf hi.2 lo.2)

/-- WRW (42_access.md R123): two writes, the low byte first; the old bytes are discarded. -/
def wrwBody (evt sync : Bool) (addr : Addr) (data : Word16) (s : State) : State × Word16 :=
  let lo := writeByte evt sync addr (lowByte data) s
  let hi := writeByte evt sync (nextAddr addr) (highByte data) lo.1
  (hi.1, 0)

/-- RD. -/
def execRd (kind : ReadKind) (evt sync : Bool) (addr : Addr) (s : State) : Host.Outcome State Fault Refusal :=
  transact (.rd kind evt sync addr) (rdBody kind evt sync addr) s

/-- WR. -/
def execWr (evt sync : Bool) (addr : Addr) (value : Byte) (s : State) : Host.Outcome State Fault Refusal :=
  transact (.wr evt sync addr value) (wrBody evt sync addr value) s

/-- RDW. -/
def execRdw (kind : ReadKind) (evt sync : Bool) (addr : Addr) (s : State) : Host.Outcome State Fault Refusal :=
  transact (.rdw kind evt sync addr) (rdwBody kind evt sync addr) s

/-- WRW. -/
def execWrw (evt sync : Bool) (addr : Addr) (data : Word16) (s : State) : Host.Outcome State Fault Refusal :=
  transact (.wrw evt sync addr data) (wrwBody evt sync addr data) s

end Sys2Proof.Machine
end

