-- ==== Sys2Proof/Machine/Cards.lean ====
section
/-! DEFINITION. The card transactions CATT, CDET, CRECFG, SLOTSEL (44_cards.md R150 to R153, R157). -/

namespace Sys2Proof.Machine

/-- The card presented for a slot (44_cards.md R150). -/
def State.cardOf (s : State) (n : Slot) : Card := s.env.cards.get n

/-- CATT of a card that initialises (R150): images, occupancy, listeners, index, map. -/
def State.attach (s : State) (n : Slot) : State :=
  let c := s.cardOf n
  let t := ((s.storeBlock (.fw n) 0 c.fw.toList).storeBlock (.exp n) 0 c.exp.toList).setCard n true true
  ((t.setListeners (t.lreg ++ cardListeners n c)).reindex).reconf

/-- CATT's effect (R150, R157): a card that fails to initialise leaves everything as it was and answers 0. -/
def cattBody (n : Slot) (s : State) : State × Word16 :=
  if (s.cardOf n).initOk then (s.attach n, 1) else (s, 0)

/-- CATT (R150). -/
def execCatt (n : Slot) (s : State) : Host.Outcome State Fault Refusal := transact (.catt n) (cattBody n) s

/-- CDET's effect (R151): the listeners go first. -/
def cdetBody (n : Slot) (s : State) : State × Word16 :=
  let t := (s.setListeners (s.lreg.filter fun l => !isCardListener n l)).reindex
  (((t.setCard n false false).setSuspended n false).reconf, 0)

/-- CDET (R151). -/
def execCdet (n : Slot) (s : State) : Host.Outcome State Fault Refusal := transact (.cdet n) (cdetBody n) s

/-- CRECFG's effect (R152): suspend (if running), detach, attach, resume-if-was-running. -/
def crecfgBody (n : Slot) (s : State) : State × Word16 :=
  let t := if s.wasRunning then s.suspendRun else s
  let r := cattBody n (cdetBody n t).1
  (if s.wasRunning then r.1.resumeRun else r.1, r.2)

/-- CRECFG (R152). -/
def execCrecfg (n : Slot) (s : State) : Host.Outcome State Fault Refusal := transact (.crecfg n) (crecfgBody n) s

/-- SLOTSEL (R153). -/
def execSlotsel (n : Option Slot) (s : State) : Host.Outcome State Fault Refusal :=
  transact (.slotsel n) (slotselBody n) s

end Sys2Proof.Machine
end

