-- ==== Sys2Proof/Machine/Mmu.lean ====
section
/-! DEFINITION. RECONF, MAPQ and the bank port BANKRD, BANKWR (41_mmu.md R116 to R119). -/

namespace Sys2Proof.Machine

/-- RECONF (R119). -/
def execReconf (s : State) : Host.Outcome State Fault Refusal := transact .reconf (fun s => (s.reconf, 0)) s

/-- MAPQ's data (R116). -/
def mapqBody (tbl : MapTable) (page : Byte) (s : State) : State × Word16 :=
  (s, MapEntry.encode (match tbl with
    | .readTable => s.readEntry page.toNat
    | .writeTable => s.writeEntry page.toNat))

/-- MAPQ (R116). -/
def execMapq (tbl : MapTable) (page : Byte) (s : State) : Host.Outcome State Fault Refusal :=
  transact (.mapq tbl page) (mapqBody tbl page) s

/-- BANKRD (R117). -/
def execBankrd (b : Bank) (page off : Byte) (s : State) : Host.Outcome State Fault Refusal :=
  transact (.bankrd b page off) (bankrdBody b page off) s

/-- BANKWR's effect (R118): that one cell. -/
def bankwrBody (b : Bank) (page off v : Byte) (s : State) : State × Word16 := (s.storeCell b page off v, 0)

/-- BANKWR (R118). -/
def execBankwr (b : Bank) (page off v : Byte) (s : State) : Host.Outcome State Fault Refusal :=
  transact (.bankwr b page off v) (bankwrBody b page off v) s

end Sys2Proof.Machine
end

