-- ==== Sys2Proof/Machine/Registry.lean ====
section
/-! DEFINITION. The soft-switch registry transactions SWGET, SWSET, SWTGL, SWRST (40_switches.md R90 to R94). The
effects of the first three stand in Ops.lean, since a callback may issue them. -/

namespace Sys2Proof.Machine

/-- SWGET (R90). -/
def execSwget (k : Switch) (s : State) : Host.Outcome State Fault Refusal := transact (.swget k) (swgetBody k) s

/-- SWSET (R91). -/
def execSwset (k : Switch) (v : Bool) (s : State) : Host.Outcome State Fault Refusal :=
  transact (.swset k v) (swsetBody k v) s

/-- SWTGL (R92). -/
def execSwtgl (k : Switch) (s : State) : Host.Outcome State Fault Refusal := transact (.swtgl k) (swtglBody k) s

/-- SWRST's effect (R93): every switch to its default, then RECONF. -/
def swrstBody (s : State) : State × Word16 := ((s.setSwitches s.params.swDefault).reconf, 0)

/-- SWRST (R93). -/
def execSwrst (s : State) : Host.Outcome State Fault Refusal := transact .swrst swrstBody s

end Sys2Proof.Machine
end

