-- ==== Sys2Proof/Machine/Reset.lean ====
section
/-! DEFINITION. The resets and the ROM load: COLDRST, WARMRST, ROMLOAD (70_reset_and_hazards.md R190 to R192). -/

namespace Sys2Proof.Machine

/-- "every cell of MAIN, AUX, LC_MAIN, LC_AUX, LC2_MAIN, LC2_AUX <- any value" (R190): their stored bytes are
forgotten, and their unwritten cells take new free values. -/
def State.forgetRam (s : State) : State :=
  { s with mem := s.mem.forget cellIsRam, ramEpoch := s.ramEpoch + 1 }

/-- The switches, slots, latch, registry and scheduler as a cold boot leaves them (R190). -/
def State.coldRegisters (s : State) : State :=
  { s with
    sw := s.params.swDefault
    occ := PerSlot.allOff
    cardrun := PerSlot.allOff
    asl := none
    lreg := s.params.switchBinding
    run := .stopped
    divcnt := s.params.clockDivisor
    speedset := []
    suspset := PerSlot.allOff
    booted := true }

/-- COLDRST's effect (R190). BLANK holds BLANK_FILL always (10_state.md R13), so its line needs no store. -/
def coldrstBody (s : State) : State × Word16 := (((s.coldRegisters.reindex).forgetRam).reconf, 0)

/-- COLDRST (R190). -/
def execColdrst (s : State) : Host.Outcome State Fault Refusal := transact .coldrst coldrstBody s

/-- WARMRST's effect (R191). -/
def warmrstBody (s : State) : State × Word16 :=
  let t := s.setSwitches s.params.swDefault
  ((if s.params.warmClearsAsl then t.setAsl none else t).reconf, 0)

/-- WARMRST (R191). -/
def execWarmrst (s : State) : Host.Outcome State Fault Refusal := transact .warmrst warmrstBody s

/-- ROMLOAD's effect (R192): the first 0x1000 bytes of the stream into CROM, the other 0x3000 into ROM. -/
def romloadBody (s : State) : State × Word16 :=
  ((s.storeBlock .crom 0 (s.env.romStream.take 0x1000)).storeBlock .rom 0 (s.env.romStream.drop 0x1000), 0)

/-- ROMLOAD (R192). -/
def execRomload (s : State) : Host.Outcome State Fault Refusal := transact .romload romloadBody s

end Sys2Proof.Machine
end

