-- ==== Sys2Proof/Machine/Scheduler.lean ====
section
/-! DEFINITION. The scheduler transactions TICK, PAUSE, RESUME, SUSPEND, START, STOP, SPDREQ, SPDREL (45_scheduler.md
R160 to R169). -/

namespace Sys2Proof.Machine

/-- One access of a tick step, with SYNC = 0 (R160), and its RDATA. -/
def runAccess (a : Access) (s : State) : State × Word16 :=
  match a with
  | .rd kind evt addr => rdBody kind evt false addr s
  | .wr evt addr value => wrBody evt false addr value s
  | .rdw kind evt addr => rdwBody kind evt false addr s
  | .wrw evt addr data => wrwBody evt false addr data s

/-- The accesses of a tick step, in order. -/
def runAccesses : List Access → State → State
  | [], s => s
  | a :: as, s =>
    let r := runAccess a s
    runAccesses as (r.1.log (.access a r.2))

/-- One environment step of TICK (R160); a faulting one keeps the accesses made before its fault (R168). -/
def runTickStep (t : TickTarget) (step : TickStep) (s : State) : State := runAccesses step.made (s.log (.tick t))

/-- Tick the card of every occupied slot, in slot order (R160). -/
def tickCards (plan : TickPlan) (s : State) : State :=
  Slot.all.foldl (fun t n => if t.occ.get n then runTickStep (.card n) (plan.cards.get n) t else t) s

/-- Tick the miscellaneous devices, in registration order (R160). -/
def tickMisc : Nat → List TickStep → State → State
  | _, [], s => s
  | i, step :: steps, s => tickMisc (i + 1) steps (runTickStep (.misc i) step s)

/-- Tick video, every attached card and every miscellaneous device (R160). -/
def tickDevices (plan : TickPlan) (s : State) : State :=
  tickMisc 0 plan.misc (tickCards plan (runTickStep .video plan.video s))

/-- TICK's effect (R160): the CPU on every TICK, first; the devices only when the counter reaches zero. -/
def tickBody (s : State) : State × Word16 :=
  let plan := s.env.ticks
  let t := runTickStep .cpu plan.cpu s
  let d := t.divcnt - 1
  if d = 0 then (tickDevices plan (t.setDivcnt t.params.clockDivisor), 0) else (t.setDivcnt d, 0)

/-- TICK (R160). -/
def execTick (s : State) : Host.Outcome State Fault Refusal := transact .tick tickBody s

/-- PAUSE (R161). -/
def execPause (s : State) : Host.Outcome State Fault Refusal :=
  transact .pause (fun s => (s.pauseRun, bit16 s.wasRunning)) s

/-- RESUME (R162). -/
def execResume (s : State) : Host.Outcome State Fault Refusal := transact .resume (fun s => (s.resumeRun, 0)) s

/-- SUSPEND (R163). -/
def execSuspend (s : State) : Host.Outcome State Fault Refusal :=
  transact .suspend (fun s => (s.suspendRun, bit16 s.wasRunning)) s

/-- START's effect (R164). -/
def startBody (s : State) : State × Word16 := (if s.run = .stopped then s.setRun .running else s, 0)

/-- START (R164). -/
def execStart (s : State) : Host.Outcome State Fault Refusal := transact .start startBody s

/-- STOP's effect (R165). -/
def stopBody (s : State) : State × Word16 := ({ s with run := .stopped, suspset := PerSlot.allOff }, 0)

/-- STOP (R165). -/
def execStop (s : State) : Host.Outcome State Fault Refusal := transact .stop stopBody s

/-- SPDREQ (R166). -/
def execSpdreq (id : Word16) (s : State) : Host.Outcome State Fault Refusal := transact (.spdreq id) (spdreqBody id) s

/-- SPDREL (R167). -/
def execSpdrel (id : Word16) (s : State) : Host.Outcome State Fault Refusal := transact (.spdrel id) (spdrelBody id) s

end Sys2Proof.Machine
end

