-- ==== Sys2Proof/Machine/Dispatch.lean ====
section
/-! DEFINITION. The dispatch of a transaction to its meaning, one arm per constructor. (Not the event dispatcher of
43_dispatch.md: that is Machine/Listeners.lean.) -/

namespace Sys2Proof.Machine

def exec (i : Instr) (s : State) : Host.Outcome State Fault Refusal :=
  match i with
  | .rd kind evt sync addr => Sys2Proof.Machine.execRd kind evt sync addr s
  | .wr evt sync addr value => Sys2Proof.Machine.execWr evt sync addr value s
  | .rdw kind evt sync addr => Sys2Proof.Machine.execRdw kind evt sync addr s
  | .wrw evt sync addr data => Sys2Proof.Machine.execWrw evt sync addr data s
  | .swget k => Sys2Proof.Machine.execSwget k s
  | .swset k v => Sys2Proof.Machine.execSwset k v s
  | .swtgl k => Sys2Proof.Machine.execSwtgl k s
  | .swrst => Sys2Proof.Machine.execSwrst s
  | .reconf => Sys2Proof.Machine.execReconf s
  | .mapq tbl page => Sys2Proof.Machine.execMapq tbl page s
  | .bankrd bank bpage boff => Sys2Proof.Machine.execBankrd bank bpage boff s
  | .bankwr bank bpage boff value => Sys2Proof.Machine.execBankwr bank bpage boff value s
  | .catt slot => Sys2Proof.Machine.execCatt slot s
  | .cdet slot => Sys2Proof.Machine.execCdet slot s
  | .crecfg slot => Sys2Proof.Machine.execCrecfg slot s
  | .slotsel slot => Sys2Proof.Machine.execSlotsel slot s
  | .ladd id => Sys2Proof.Machine.execLadd id s
  | .lrem id => Sys2Proof.Machine.execLrem id s
  | .tick => Sys2Proof.Machine.execTick s
  | .pause => Sys2Proof.Machine.execPause s
  | .resume => Sys2Proof.Machine.execResume s
  | .suspend => Sys2Proof.Machine.execSuspend s
  | .start => Sys2Proof.Machine.execStart s
  | .stop => Sys2Proof.Machine.execStop s
  | .spdreq id => Sys2Proof.Machine.execSpdreq id s
  | .spdrel id => Sys2Proof.Machine.execSpdrel id s
  | .coldrst => Sys2Proof.Machine.execColdrst s
  | .warmrst => Sys2Proof.Machine.execWarmrst s
  | .romload => Sys2Proof.Machine.execRomload s

end Sys2Proof.Machine
end

