-- ==== Sys2Proof/Machine/Step.lean ====
section
/-! DEFINITION. One step: the transaction at the head of the port is taken, decoded and executed (20_memory.md R56,
70_reset_and_hazards.md R207: "Every transaction takes one step of the model"). The block has no program counter
(10_state.md R11); its next transaction is the head of `pending` (log 1). -/

namespace Sys2Proof.Machine

/-- One step. With nothing presented, nothing happens (log 1). -/
def step (s : State) : Host.Outcome State Fault Refusal :=
  match s.pending with
  | [] => .next s
  | r :: rest =>
    match decode r.word with
    | .ok i => exec i (s.take r rest)
    | .error _ => refuseWord (s.take r rest)

/-- Present a transaction word, with the environment's side as it is, ahead of everything else. -/
def State.withFetchWord (s : State) (nbits w : Nat) : State :=
  { s with pending := ⟨BitVec.ofNat 48 (w % 2 ^ nbits), s.env⟩ :: s.pending }

end Sys2Proof.Machine
end

