-- ==== Sys2Proof/Safety.lean ====
section
/-! DEFINITION. The terms claims are stated in: the closed form of the map (41_mmu.md R113), valid entries (10_state.md
R16, R17), the invariants of the machine, the rows of spec/opcode_table.json, and how a transaction ends. -/

namespace Sys2Proof.Machine

/-! ## The map in closed form (41_mmu.md R113), independent of the engine's steps -/

/-- `X ? a : b` of R113 for the RAM pages `$02..$BF`: step 1's choice unless the 80-column store overrides it. -/
def closedRam (sw : Switches) (select : Bool) (p : Nat) : MapEntry :=
  if (0x04 ≤ p ∧ p ≤ 0x07 ∧ sw.store80 = true) ∨ (0x20 ≤ p ∧ p ≤ 0x3F ∧ sw.store80 = true ∧ sw.hires = true) then
    some ⟨if sw.page2 then .aux else .main, BitVec.ofNat 8 p⟩
  else some ⟨if select then .aux else .main, BitVec.ofNat 8 p⟩

/-- The language-card page shown at page `p` of `$D0..$FF` (R113). -/
def closedLc (sw : Switches) (p : Nat) : MapEntry :=
  if p ≤ 0xDF ∧ sw.lcbank1 = false then
    some ⟨if sw.auxzp then .lc2Aux else .lc2Main, BitVec.ofNat 8 (p - 0xD0)⟩
  else some ⟨if sw.auxzp then .lcAux else .lcMain, BitVec.ofNat 8 (p - 0xD0)⟩

/-- The firmware window of slot n (R113, rows `$C1..$C7`). -/
def closedFirmware (x : MapInputs) (n : Slot) : MapEntry :=
  if x.sw.intcxrom = true ∨ (n = .s3 ∧ x.sw.slotc3rom = false) then some ⟨.crom, BitVec.ofNat 8 n.number⟩
  else if x.occ.get n then some ⟨.fw n, 0⟩ else some ⟨.blank, 0⟩

/-- The expansion window (R113, row `$C8..$CF`). -/
def closedExpansion (x : MapInputs) (p : Nat) : MapEntry :=
  if x.sw.intcxrom = true ∨ x.sw.intc8rom = true then some ⟨.crom, BitVec.ofNat 8 (p - 0xC0)⟩
  else match x.asl with
    | some n => if x.occ.get n then some ⟨.exp n, BitVec.ofNat 8 (p - 0xC8)⟩ else some ⟨.blank, 0⟩
    | none => some ⟨.blank, 0⟩

/-- R113, read table. -/
def closedRead (x : MapInputs) (p : Nat) : MapEntry :=
  if p ≤ 0x01 then some ⟨if x.sw.auxzp then .aux else .main, BitVec.ofNat 8 p⟩
  else if p ≤ 0xBF then closedRam x.sw x.sw.ramrd p
  else if p = 0xC0 then some ⟨.blank, 0⟩
  else if p ≤ 0xC7 then
    match Slot.ofNumber? (p - 0xC0) with
    | some n => closedFirmware x n
    | none => none
  else if p ≤ 0xCF then closedExpansion x p
  else if x.sw.lcram then closedLc x.sw p
  else some ⟨.rom, BitVec.ofNat 8 (p - 0xD0)⟩

/-- R113, write table. -/
def closedWrite (x : MapInputs) (p : Nat) : MapEntry :=
  if p ≤ 0x01 then some ⟨if x.sw.auxzp then .aux else .main, BitVec.ofNat 8 p⟩
  else if p ≤ 0xBF then closedRam x.sw x.sw.ramwrt p
  else if p ≤ 0xCF then none
  else if x.sw.lcwrite then closedLc x.sw p
  else none

/-- The 256 entries of the read table. -/
def closedReadTable (x : MapInputs) : List MapEntry := (List.range 256).map (closedRead x)

/-- The 256 entries of the write table. -/
def closedWriteTable (x : MapInputs) : List MapEntry := (List.range 256).map (closedWrite x)

/-! ## Valid entries -/

/-- A bank that is live: a card's bank only while its slot is occupied (41_mmu.md R114 (d)). -/
def bankLive (occ : PerSlot Bool) : Bank → Bool
  | .fw n => occ.get n
  | .exp n => occ.get n
  | .main | .aux | .rom | .crom | .lcMain | .lcAux | .lc2Main | .lc2Aux | .blank => true

/-- "either `None` or a valid PageRef into a live Bank — never dangling" (10_state.md R17 (I-c)). -/
def entryValid (occ : PerSlot Bool) : MapEntry → Bool
  | none => true
  | some r => decide (r.page.toNat < r.bank.pages) && bankLive occ r.bank

/-! ## The invariants -/

/-- The tables are RECONF of the state (70_reset_and_hazards.md R203). -/
def State.mapCurrent (s : State) : Prop := s.rt = closedReadTable s.mapInputs ∧ s.wt = closedWriteTable s.mapInputs

/-- The index is the one rebuilt from the registry (10_state.md R24, 43_dispatch.md R139). -/
def State.indexCurrent (s : State) : Prop := s.pidx = pageIndexOf s.lreg ∧ s.ridx = registerIndexOf s.lreg

/-- Memory has its canonical form, and only cells of the banks hold stored bytes (10_state.md R13, R14). -/
def State.memoryOk (s : State) : Prop := s.mem.wf ∧ ∀ c ∈ s.mem, cellStorable c.1 = true

/-- DIVCNT is in 1..CLOCK_DIVISOR (10_state.md R25). -/
def State.clockOk (s : State) : Prop := 1 ≤ s.divcnt ∧ s.divcnt ≤ s.params.clockDivisor

/-- A recorded card is in an occupied slot and not running; a running card is in an occupied slot
(10_state.md R25, 45_scheduler.md R163, 44_cards.md R150, R151). -/
def State.cardsOk (s : State) : Prop :=
  ∀ n, (s.suspset.get n = true → s.occ.get n = true ∧ s.cardrun.get n = false) ∧
    (s.cardrun.get n = true → s.occ.get n = true)

/-- What holds between any two transactions. Before the first COLDRST everything but memory's form is unspecified
(70_reset_and_hazards.md R194). -/
structure State.Inv (s : State) : Prop where
  memory : s.memoryOk
  quiet : s.inDispatch = false
  divisor : 1 ≤ s.params.clockDivisor
  map : s.booted = true → s.mapCurrent
  index : s.booted = true → s.indexCurrent
  clock : s.booted = true → s.clockOk
  cards : s.booted = true → s.cardsOk

/-! ## How a transaction ends (30_encoding.md R73) -/

/-- An accepted transaction that calls nobody ends with OK and this RDATA. -/
def State.answered (s : State) (rdata : Word16) : State := { s with response := ⟨.ok, rdata⟩, events := [] }

/-- A refused transaction changes nothing and answers REFUSED. -/
def State.turnedAway (s : State) : State := { s with response := ⟨.refused, 0⟩, events := [] }

/-- The state with both tables in closed form. -/
def State.remapped (s : State) : State :=
  { s with rt := closedReadTable s.mapInputs, wt := closedWriteTable s.mapInputs }

/-- The state with the index of its registry. -/
def State.reindexed (s : State) : State :=
  { s with pidx := pageIndexOf s.lreg, ridx := registerIndexOf s.lreg }

/-- A listener that only observes: it returns `cur` and issues nothing (43_dispatch.md R143). -/
def isObserver (l : Listener) : Bool :=
  l.device == .program [] .cur && (match l.role with
    | .plain => true
    | .cardIo _ => true
    | .cardFirmware _ => false
    | .cardExpansion _ => true)

/-- What a read of `addr` gives when no listener takes part (42_access.md R120): FLOAT_BUS in the I/O hole, else the byte
the read table selects. -/
def State.plainRead (s : State) (addr : Addr) : Byte :=
  if pageOf addr = ioPage then s.params.floatBus
  else s.fetchByte (s.readEntry (pageOf addr)) (offsetOf addr)

/-- The byte the read table selects for `addr`, FLOAT_BUS for a NONE entry (20_memory.md R43, R46): what a chain of a read
starts with, in the I/O hole too (42_access.md R126). -/
def State.selectedByte (s : State) (addr : Addr) : Byte := s.fetchByte (s.readEntry (pageOf addr)) (offsetOf addr)

/-- The old byte of a write of `addr` (42_access.md R121): of the cell the write table selects, else of the read-mapped
cell, else FLOAT_BUS. -/
def State.replacedByte (s : State) (addr : Addr) : Byte :=
  match s.writeEntry (pageOf addr), s.readEntry (pageOf addr) with
  | some w, _ => s.cell w.bank w.page (offsetOf addr)
  | none, some r => s.cell r.bank r.page (offsetOf addr)
  | none, none => s.params.floatBus

/-- The state in which the chain of an access starts: nothing reported yet and, with SYNC = 1, SUSPEND done
(42_access.md R127). -/
def State.chainStart (s : State) (sync : Bool) : State :=
  if sync then ({ s with events := [] } : State).suspendRun else { s with events := [] }

/-- The cell `Bank[b][p][o]` is the one a write of `addr` through this write-table entry stores to (20_memory.md R44). -/
def isDestination (w : MapEntry) (addr : Addr) (b : Bank) (p o : Byte) : Prop := w = some ⟨b, p⟩ ∧ o = offsetOf addr

/-- Nothing but memory, the switches, ASL, the tables, SPEEDSET, SUSPSET, CARDRUN, the outputs and the free value
counter differs: what an access may change. -/
def accessFrame (s t : State) : Prop :=
  t.occ = s.occ ∧ t.lreg = s.lreg ∧ t.pidx = s.pidx ∧ t.ridx = s.ridx ∧ t.run = s.run ∧ t.divcnt = s.divcnt ∧
    t.booted = s.booted ∧ t.inDispatch = s.inDispatch ∧ t.pending = s.pending ∧ t.params = s.params ∧
    t.env = s.env ∧ t.ramEpoch = s.ramEpoch

/-- No card started or stopped, and none was recorded or forgotten. -/
def cardsKept (s t : State) : Prop := t.cardrun = s.cardrun ∧ t.suspset = s.suspset

/-- `u` is `t` but for the two records of the cards, CARDRUN and SUSPSET. -/
def equalButCards (t u : State) : Prop := u = { t with cardrun := u.cardrun, suspset := u.suspset }

/-! ## Listeners -/

/-- A listener that an access skips, the three tests of 43_dispatch.md R136 spelled out: its scope does not take in the
address, or its type filter is neither ANY nor the kind, or bit `cur` of its value mask is 0. -/
def skipped (l : Listener) (kind : AccessKind) (addr : Addr) (cur : Byte) : Prop :=
  (match l.scope with
    | .address a => addr ≠ a
    | .range lo hi => addr.toNat < lo.toNat ∨ hi.toNat < addr.toNat
    | .any => False) ∨
  (match l.tfilter with
    | .any => False
    | .read => kind ≠ .read
    | .write => kind ≠ .write
    | .execute => kind ≠ .execute) ∨
  l.vmask.getLsbD cur.toNat = false

/-- What one listener of a chain, a plain one given as data without nested operations, does to the value (43_dispatch.md
R135, R137): skipped, it is not called and the value passes; else it is called with the value and the old byte, and the
value is what it returns. -/
def listenerTurn (l : Listener) (e : ValueExpr) (sw : Switches) (kind : AccessKind) (addr : Addr) (old cur next : Byte)
    (calls : List Event) : Prop :=
  (skipped l kind addr cur → calls = [] ∧ next = cur) ∧
    (¬ skipped l kind addr cur →
      calls = [.call ⟨l.id, kind, addr, registerOffset addr, old, cur⟩] ∧
      next = e.eval ⟨l.id, kind, addr, registerOffset addr, old, cur⟩ sw)

/-! ## TICK -/

/-- The transaction an access of a tick step is, with SYNC = 0 (45_scheduler.md R160). -/
def Access.instr : Access → Instr
  | .rd kind evt addr => .rd kind evt false addr
  | .wr evt addr value => .wr evt false addr value
  | .rdw kind evt addr => .rdw kind evt false addr
  | .wrw evt addr data => .wrw evt false addr data

/-- The accesses a tick step makes: all, or as many as it made before its fault (45_scheduler.md R168). -/
def TickStep.kept (p : TickStep) : List Access := p.accesses.take (p.faultAfter.getD p.accesses.length)

/-- What one TICK ticks, in order, and the step of each (45_scheduler.md R160): the CPU; where DIVCNT expires, video, the
card of every occupied slot, and every miscellaneous device by its place in the registration order. DIVCNT = 0 counts
as expiry (log 28). -/
def State.tickOrder (s : State) : List (TickTarget × TickStep) :=
  (.cpu, s.env.ticks.cpu) ::
    if s.divcnt ≤ 1 then
      (.video, s.env.ticks.video) ::
        (Slot.all.filter fun n => s.occ.get n).map (fun n => (.card n, s.env.ticks.cards.get n)) ++
        s.env.ticks.misc.zipIdx.map (fun p => (.misc p.2, p.1))
    else []

/-- Accesses presented at the port one after another: the state they lead to, and what the outside sees, the events of
each and then its RDATA. -/
def atPort : List Access → State → State × List Event
  | [], s => (s, [])
  | a :: as, s =>
    match exec a.instr s with
    | .next t => ((atPort as t).1, t.events ++ .access a t.response.rdata :: (atPort as t).2)
    | .fault _ => (s, [])
    | .refused _ => (s, [])

/-- Tick steps one after another, each the accesses it makes at the port. -/
def ticksAtPort : List (TickTarget × TickStep) → State → State × List Event
  | [], s => (s, [])
  | (k, p) :: ps, s =>
    ((ticksAtPort ps (atPort p.kept s).1).1,
      .tick k :: (atPort p.kept s).2 ++ (ticksAtPort ps (atPort p.kept s).1).2)

/-! ## The rows of spec/opcode_table.json -/

/-- One row: a word is this transaction when `word &&& mask = matched` and the row's note holds. -/
structure OpcodeRow where
  mnemonic : String
  matched : TxnWord
  mask : TxnWord
deriving DecidableEq, Repr, Inhabited

/-- The rows, letter for letter. -/
def opcodeRows : List OpcodeRow :=
  [⟨"RD", 0x010000000000, 0xFFF10000FFFF⟩, ⟨"WR", 0x020100000000, 0xFFF30000FF00⟩,
   ⟨"RDW", 0x030000000000, 0xFFF10000FFFF⟩, ⟨"WRW", 0x040100000000, 0xFFF300000000⟩,
   ⟨"SWGET", 0x100000000000, 0xFFF0FFFFFFFF⟩, ⟨"SWSET", 0x110000000000, 0xFFF0FFFFFFFE⟩,
   ⟨"SWTGL", 0x120000000000, 0xFFF0FFFFFFFF⟩, ⟨"SWRST", 0x130000000000, 0xFFFFFFFFFFFF⟩,
   ⟨"RECONF", 0x200000000000, 0xFFFFFFFFFFFF⟩, ⟨"MAPQ", 0x210000000000, 0xFFFEFF00FFFF⟩,
   ⟨"BANKRD", 0x220000000000, 0xFFE00000FFFF⟩, ⟨"BANKWR", 0x230000000000, 0xFFE00000FF00⟩] ++
  [⟨"CATT", 0x300000000000, 0xFFF8FFFFFFFF⟩, ⟨"CDET", 0x310000000000, 0xFFF8FFFFFFFF⟩,
   ⟨"CRECFG", 0x320000000000, 0xFFF8FFFFFFFF⟩, ⟨"SLOTSEL", 0x330000000000, 0xFFF8FFFFFFFF⟩,
   ⟨"LADD", 0x400000000000, 0xFFFFFFFF0000⟩, ⟨"LREM", 0x410000000000, 0xFFFFFFFF0000⟩] ++
  [⟨"TICK", 0x500000000000, 0xFFFFFFFFFFFF⟩, ⟨"PAUSE", 0x510000000000, 0xFFFFFFFFFFFF⟩,
   ⟨"RESUME", 0x520000000000, 0xFFFFFFFFFFFF⟩, ⟨"SUSPEND", 0x530000000000, 0xFFFFFFFFFFFF⟩,
   ⟨"START", 0x540000000000, 0xFFFFFFFFFFFF⟩, ⟨"STOP", 0x550000000000, 0xFFFFFFFFFFFF⟩,
   ⟨"SPDREQ", 0x560000000000, 0xFFFFFFFF0000⟩, ⟨"SPDREL", 0x570000000000, 0xFFFFFFFF0000⟩,
   ⟨"COLDRST", 0x600000000000, 0xFFFFFFFFFFFF⟩, ⟨"WARMRST", 0x610000000000, 0xFFFFFFFFFFFF⟩,
   ⟨"ROMLOAD", 0x620000000000, 0xFFFFFFFFFFFF⟩]

/-- The notes of the rows, what a mask cannot express: K in 0..11 for format S; an existing page of an existing bank for
format B; SLOT in 1..7 for CATT, CDET, CRECFG. -/
def rowNote (w : TxnWord) : Bool :=
  let opc := (w >>> 40).toNat
  let mod := (w >>> 32).toNat % 256
  let bpage := (w >>> 24).toNat % 256
  if opc = 0x10 ∨ opc = 0x11 ∨ opc = 0x12 then decide (mod ≤ 11)
  else if opc = 0x22 ∨ opc = 0x23 then
    (match Bank.ofId? mod with
      | some b => decide (bpage < b.pages)
      | none => false)
  else if opc = 0x30 ∨ opc = 0x31 ∨ opc = 0x32 then decide (1 ≤ mod)
  else true

/-- A well-formed transaction word (30_encoding.md R80, spec/opcode_table.json). -/
def wordWellFormed (w : TxnWord) : Bool :=
  opcodeRows.any (fun r => w &&& r.mask == r.matched) && rowNote w

end Sys2Proof.Machine
end

