-- ==== Sys2Proof/Certificates/Slice0/Obligations.lean ====
section
/-! DEFINITION. The statements for the provers. Each is about every state unless it says otherwise. `s.answered d` is the
state with the response OK and RDATA `d` and no event; `s.turnedAway` the state with the response REFUSED and no event;
`s.remapped` the state with both tables in the closed form of 41_mmu.md R113; `s.reindexed` the state with the index of
its registry (Safety.lean). -/

open Sys2Proof Sys2Proof.Machine

/-! ## Encoding -/

/-- 30_encoding.md R70, R71, R74: decoding the word of a well-formed instruction gives the instruction back. -/
def Obligations.DecodeOfEncodeIsTheInstruction : Prop :=
  ∀ i : Instr, i.wellFormed = true → decode (encode i) = .ok i

/-- 30_encoding.md R70, R71, R80 (b): an accepted word is the word of the instruction read from it, so every unused bit
of it is zero; and that instruction is well formed. -/
def Obligations.EncodeOfDecodeIsTheWord : Prop :=
  ∀ (w : TxnWord) (i : Instr), decode w = .ok i → encode i = w ∧ i.wellFormed = true

/-- 30_encoding.md R80 and spec/opcode_table.json: the decoder accepts exactly the words that some row of the table
matches under its mask and whose row's note holds. -/
def Obligations.DecoderAcceptsExactlyTheTableWords : Prop :=
  ∀ w : TxnWord, (∃ i, decode w = .ok i) ↔ wordWellFormed w = true

/-- 30_encoding.md section 6: worked encodings, one or more of each family. -/
def Obligations.WorkedEncodingsDecode : Prop :=
  decode 0x010004000000 = .ok (.rd .read false false 0x0400) ∧
  decode 0x0106C4000000 = .ok (.rd .execute true false 0xC400) ∧
  decode 0x020DC0B00000 = .ok (.wr true true 0xC0B0 0x00) ∧
  decode 0x0300FFFC0000 = .ok (.rdw .read false false 0xFFFC) ∧
  decode 0x040103F01234 = .ok (.wrw false false 0x03F0 0x1234) ∧
  decode 0x110900000001 = .ok (.swset .intcxrom true) ∧
  decode 0x120800000000 = .ok (.swtgl .page2) ∧
  decode 0x210100D00000 = .ok (.mapq .writeTable 0xD0) ∧
  decode 0x23022FFC0062 = .ok (.bankwr .rom 0x2F 0xFC 0x62) ∧
  decode 0x300400000000 = .ok (.catt .s4) ∧
  decode 0x330000000000 = .ok (.slotsel none) ∧
  decode 0x400000000007 = .ok (.ladd 0x0007) ∧
  decode 0x510000000000 = .ok .pause ∧
  decode 0x600000000000 = .ok .coldrst

/-- 30_encoding.md R75: the word of a map entry, NONE and mapped, field by field. -/
def Obligations.MapEntryWordLayout : Prop :=
  MapEntry.encode none = 0x0000 ∧
  ∀ r : PageRef, (MapEntry.encode (some r)).getLsbD 15 = true ∧
    (MapEntry.encode (some r)).extractLsb' 13 2 = 0 ∧
    ((MapEntry.encode (some r)).extractLsb' 8 5).toNat = r.bank.id ∧
    (MapEntry.encode (some r)).extractLsb' 0 8 = r.page ∧
    MapEntry.encode (some r) = 0x8000#16 ||| (BitVec.ofNat 16 r.bank.id <<< 8) ||| r.page.setWidth 16

/-! ## The step, responses and refusals -/

/-- 20_memory.md R56, 30_encoding.md R70: a step takes the presented transaction at the head of the port and executes it,
with its out-of-band operands as the environment's side. -/
def Obligations.StepRunsTheDecodedTransaction : Prop :=
  ∀ (s : State) (r : Request) (rest : List Request) (i : Instr),
    s.pending = r :: rest → decode r.word = .ok i →
      step s = exec i { s with pending := rest, env := r.env }

/-- 30_encoding.md R80: a word that is not well formed, by the table's rows and notes, is refused and changes nothing. -/
def Obligations.IllFormedWordIsRefused : Prop :=
  ∀ (s : State) (r : Request) (rest : List Request),
    s.pending = r :: rest → wordWellFormed r.word = false →
      step s = .next ({ s with pending := rest, env := r.env } : State).turnedAway

/-- 60_exceptions.md R170, 30_encoding.md R73: no transaction and no step stops the machine; a refused transaction answers
`RDATA = 0` and has changed no state at all. -/
def Obligations.NothingStopsAndARefusalChangesNothing : Prop :=
  (∀ s : State, ∃ t, step s = .next t) ∧
  ∀ (i : Instr) (s : State), ∃ t, exec i s = .next t ∧ (t.response.status = .refused → t = s.turnedAway)

/-- 70_reset_and_hazards.md R194, 60_exceptions.md R175 (2): while BOOTED is 0 every transaction but COLDRST, ROMLOAD and
BANKWR is refused. -/
def Obligations.BeforeTheFirstResetOnlyThreeAreAccepted : Prop :=
  ∀ (i : Instr) (s : State), s.booted = false → i ≠ .coldrst → i ≠ .romload →
    (∀ b p o v, i ≠ .bankwr b p o v) → exec i s = .next s.turnedAway

/-- 70_reset_and_hazards.md R204, 60_exceptions.md R175 (3): what is refused inside a dispatch, at the port and as an
operation of a callback. -/
def Obligations.InsideADispatchTheRestIsRefused : Prop :=
  ∀ (i : Instr) (s : State), s.inDispatch = true →
    ((∃ id, i = .ladd id) ∨ (∃ id, i = .lrem id) ∨ (∃ n, i = .catt n) ∨ (∃ n, i = .cdet n) ∨ (∃ n, i = .crecfg n) ∨
      i = .swrst ∨ i = .reconf ∨ (∃ t p, i = .mapq t p) ∨ (∃ b p o v, i = .bankwr b p o v) ∨ i = .coldrst ∨
      i = .warmrst ∨ i = .romload ∨ i = .tick ∨ i = .pause ∨ i = .suspend ∨ i = .resume ∨ i = .start ∨ i = .stop ∨
      (∃ k e a, i = .rd k e true a) ∨ (∃ e a v, i = .wr e true a v) ∨ (∃ k e a, i = .rdw k e true a) ∨
      (∃ e a d, i = .wrw e true a d)) →
    exec i s = .next s.turnedAway ∧ runNested i s = (s, ⟨.refused, 0⟩)

/-- 70_reset_and_hazards.md R200: a structural mutation at top level while RUN is Running is refused. -/
def Obligations.StructuralMutationNeedsQuiescence : Prop :=
  ∀ (i : Instr) (s : State), s.inDispatch = false → s.run = .running →
    ((∃ k v, i = .swset k v) ∨ (∃ k, i = .swtgl k) ∨ i = .swrst ∨ i = .reconf ∨ (∃ n, i = .slotsel n) ∨
      (∃ id, i = .ladd id) ∨ (∃ id, i = .lrem id) ∨ (∃ n, i = .catt n) ∨ (∃ n, i = .cdet n) ∨ i = .warmrst) →
    exec i s = .next s.turnedAway

/-- 60_exceptions.md R175 (5): the preconditions of the transactions' own rules. -/
def Obligations.OwnPreconditionFailuresAreRefused : Prop :=
  ∀ s : State,
    (∀ id, s.env.record? id = none → exec (.ladd id) s = .next s.turnedAway) ∧
    (∀ n, s.occ.get n = true → exec (.catt n) s = .next s.turnedAway) ∧
    (∀ n, s.occ.get n = false → exec (.cdet n) s = .next s.turnedAway ∧ exec (.crecfg n) s = .next s.turnedAway) ∧
    (∀ p o v, exec (.bankwr .blank p o v) s = .next s.turnedAway) ∧
    (s.run ≠ .running → exec .tick s = .next s.turnedAway) ∧
    (s.run = .stopped → exec .resume s = .next s.turnedAway) ∧
    (s.run = .paused → exec .start s = .next s.turnedAway) ∧
    (s.env.romStream.length ≠ 0x4000 → exec .romload s = .next s.turnedAway) ∧
    (s.booted = true → s.run ≠ .stopped → exec .romload s = .next s.turnedAway)

/-- 10_state.md R27, R13: the parameters and the environment's side are written by no transaction, the blank page is
BLANK_FILL after every one, and the transactions presented later stay as they are. -/
def Obligations.ParametersAndBlankPageAreNeverWritten : Prop :=
  ∀ (i : Instr) (s t : State), exec i s = .next t →
    t.params = s.params ∧ t.env = s.env ∧ t.pending = s.pending ∧ ∀ p o, t.cell .blank p o = s.params.blankFill

/-- 10_state.md R14: no cell of any bank changes but by WR, WRW, BANKWR, ROMLOAD, CATT, CRECFG (its CATT), COLDRST, and TICK
(whose environment steps issue WR and WRW). -/
def Obligations.OnlyTheListedTransactionsChangeCells : Prop :=
  ∀ (i : Instr) (s t : State), exec i s = .next t →
    (∀ e y a v, i ≠ .wr e y a v) → (∀ e y a d, i ≠ .wrw e y a d) → (∀ b p o v, i ≠ .bankwr b p o v) →
    (∀ n, i ≠ .catt n) → (∀ n, i ≠ .crecfg n) → i ≠ .romload → i ≠ .coldrst → i ≠ .tick →
    ∀ b p o, t.cell b p o = s.cell b p o

/-- 10_state.md R20, R23: OCC changes only by CATT, CDET, CRECFG, COLDRST; LREG only by those, LADD and LREM; so no
access, no callback and no TICK changes either. -/
def Obligations.OnlyCardAndListenerTransactionsChangeSlotsAndRegistry : Prop :=
  ∀ (i : Instr) (s t : State), exec i s = .next t →
    (∀ n, i ≠ .catt n) → (∀ n, i ≠ .cdet n) → (∀ n, i ≠ .crecfg n) → i ≠ .coldrst →
    t.occ = s.occ ∧ ((∀ id, i ≠ .ladd id) → (∀ id, i ≠ .lrem id) → t.lreg = s.lreg)

/-- 10_state.md R19: no switch moves but by SWSET, SWTGL, SWRST, COLDRST, WARMRST, an access, or TICK; of accesses and TICK
(whose callbacks may issue SWSET and SWTGL) this says nothing. -/
def Obligations.OnlySwitchTransactionsResetsAndAccessesMoveSwitches : Prop :=
  ∀ (i : Instr) (s t : State), exec i s = .next t →
    (∀ k v, i ≠ .swset k v) → (∀ k, i ≠ .swtgl k) → i ≠ .swrst → i ≠ .coldrst → i ≠ .warmrst →
    (∀ k e y a, i ≠ .rd k e y a) → (∀ e y a v, i ≠ .wr e y a v) → (∀ k e y a, i ≠ .rdw k e y a) →
    (∀ e y a d, i ≠ .wrw e y a d) → i ≠ .tick → t.sw = s.sw

/-! ## The reconfiguration engine -/

/-- 41_mmu.md R113: the pre-clear and the nine overwriting steps leave, on every page of both tables, the entry of the
priority-multiplexer form, for every switch vector, every OCC and every ASL. -/
def Obligations.ReconfigurationEqualsTheClosedForm : Prop :=
  ∀ (x : MapInputs) (p : Nat), p < 256 →
    tableEntry (readTableOf x) p = closedRead x p ∧ tableEntry (writeTableOf x) p = closedWrite x p

/-- 41_mmu.md R114, 10_state.md R16, R17: after every reconfiguration every entry is NONE or names an existing page of a
live bank; no read-table entry is NONE; the write table is NONE on `$C0..$CF`, and on `$D0..$FF` exactly when LCWRITE is
off; it names RAM-type banks only, and below `$C0` the page with the page's own number. -/
def Obligations.MapEntriesNeverDangle : Prop :=
  ∀ (x : MapInputs) (p : Nat), p < 256 →
    entryValid x.occ (tableEntry (readTableOf x) p) = true ∧ entryValid x.occ (tableEntry (writeTableOf x) p) = true ∧
    tableEntry (readTableOf x) p ≠ none ∧
    (0xC0 ≤ p → p ≤ 0xCF → tableEntry (writeTableOf x) p = none) ∧
    (0xD0 ≤ p → (tableEntry (writeTableOf x) p = none ↔ x.sw.lcwrite = false)) ∧
    (∀ r, tableEntry (writeTableOf x) p = some r → r.bank.ramType = true ∧ (p < 0xC0 → r.page.toNat = p))

/-- 41_mmu.md R119: RECONF rewrites both tables from the switches, the slots and the latch, and nothing else. -/
def Obligations.ReconfRebuildsBothTables : Prop :=
  ∀ s : State, s.booted = true → s.inDispatch = false → s.run ≠ .running →
    exec .reconf s = .next (s.remapped.answered 0)

/-- 41_mmu.md R116: MAPQ answers the word of the entry, at any time, and changes nothing. -/
def Obligations.MapqAnswersTheEntryWord : Prop :=
  ∀ (s : State) (p : Byte), s.booted = true → s.inDispatch = false →
    exec (.mapq .readTable p) s = .next (s.answered (MapEntry.encode (s.rt.getD p.toNat none))) ∧
    exec (.mapq .writeTable p) s = .next (s.answered (MapEntry.encode (s.wt.getD p.toNat none)))

/-! ## The switch registry -/

/-- 40_switches.md R90: SWGET answers the switch, needs no quiescence, and changes nothing. -/
def Obligations.SwgetAnswersTheSwitch : Prop :=
  ∀ (s : State) (k : Switch), s.booted = true →
    exec (.swget k) s = .next (s.answered (if s.sw.get k then 1 else 0))

/-- 40_switches.md R91: SWSET sets that one switch, rebuilds both tables, answers 0. -/
def Obligations.SwsetSetsOneSwitchAndRemaps : Prop :=
  ∀ (s : State) (k : Switch) (v : Bool), s.booted = true → (s.inDispatch = true ∨ s.run ≠ .running) →
    ∃ sw : Switches, sw.get k = v ∧ (∀ j, j ≠ k → sw.get j = s.sw.get j) ∧
      exec (.swset k v) s = .next (({ s with sw := sw } : State).remapped.answered 0)

/-- 40_switches.md R92: SWTGL inverts that one switch and rebuilds both tables; two in succession restore the state. -/
def Obligations.SwtglInvertsOneSwitchAndRemaps : Prop :=
  ∀ (s : State) (k : Switch), s.booted = true → (s.inDispatch = true ∨ s.run ≠ .running) →
    ∃ t, exec (.swtgl k) s = .next t ∧
      (∃ sw : Switches, sw.get k = (!s.sw.get k) ∧ (∀ j, j ≠ k → sw.get j = s.sw.get j) ∧
        t = ({ s with sw := sw } : State).remapped.answered 0) ∧
      (s.mapCurrent → exec (.swtgl k) t = .next (s.answered 0))

/-- 40_switches.md R93: SWRST returns every switch to its default, rebuilds both tables, writes nothing else. -/
def Obligations.SwrstRestoresTheDefaults : Prop :=
  ∀ s : State, s.booted = true → s.inDispatch = false → s.run ≠ .running →
    exec .swrst s = .next (({ s with sw := s.params.swDefault } : State).remapped.answered 0)

/-! ## The bank port -/

/-- 41_mmu.md R117: BANKRD answers the cell and changes nothing; of a card bank of an empty slot it answers some byte
(a free value, log 8), and only the model's own counter moves. -/
def Obligations.BankrdAnswersTheCell : Prop :=
  ∀ (s : State) (b : Bank) (p o : Byte), s.booted = true → p.toNat < b.pages →
    ((∀ n, b = .fw n ∨ b = .exp n → s.occ.get n = true) →
      exec (.bankrd b p o) s = .next (s.answered ((s.cell b p o).setWidth 16))) ∧
    (∀ n, b = .fw n ∨ b = .exp n → s.occ.get n = false →
      ∃ v : Byte, exec (.bankrd b p o) s = .next (({ s with fresh := s.fresh + 1 } : State).answered (v.setWidth 16)))

/-- 41_mmu.md R118: BANKWR writes that one cell of any bank but BLANK, whatever the map says, also before the first
reset. -/
def Obligations.BankwrStoresOneCell : Prop :=
  ∀ (s : State) (b : Bank) (p o v : Byte), s.inDispatch = false → p.toNat < b.pages → b ≠ .blank →
    ∃ t, exec (.bankwr b p o v) s = .next t ∧
      t.cell b p o = v ∧
      (∀ c q r, (c, q, r) ≠ (b, p, o) → t.cell c q r = s.cell c q r) ∧
      t = ({ s with mem := t.mem } : State).answered 0

/-! ## Accesses -/

/-- 42_access.md R120 to R123, 20_memory.md R52: an access completes whatever its address, and changes no slot, listener,
index entry, RUN, DIVCNT or parameter, whatever its listeners do; with SYNC = 0 no card either; a read, byte or word,
changes no bank cell. SPEEDSET may change (a callback may issue SPDREQ and SPDREL, 43_dispatch.md R138), and with SYNC = 1
CARDRUN and SUSPSET may (log 27). -/
def Obligations.AccessIsNeverRefusedForItsAddress : Prop :=
  ∀ (s : State) (sync : Bool), s.booted = true → (s.inDispatch = false ∨ sync = false) →
    (∀ kind evt addr, ∃ t, exec (.rd kind evt sync addr) s = .next t ∧ t.response.status = .ok ∧ accessFrame s t ∧
      (sync = false → cardsKept s t) ∧ ∀ b p o, t.cell b p o = s.cell b p o) ∧
    (∀ evt addr v, ∃ t, exec (.wr evt sync addr v) s = .next t ∧ t.response.status = .ok ∧ accessFrame s t ∧
      (sync = false → cardsKept s t)) ∧
    (∀ kind evt addr, ∃ t, exec (.rdw kind evt sync addr) s = .next t ∧ t.response.status = .ok ∧ accessFrame s t ∧
      (sync = false → cardsKept s t) ∧ ∀ b p o, t.cell b p o = s.cell b p o) ∧
    (∀ evt addr d, ∃ t, exec (.wrw evt sync addr d) s = .next t ∧ t.response.status = .ok ∧ accessFrame s t ∧
      (sync = false → cardsKept s t))

/-- 42_access.md R120, R126: a read in whose bucket no listener is gives the byte the read table selects, FLOAT_BUS in
the I/O hole, and changes nothing (with EVT and SYNC set, an empty chain still suspends and resumes). -/
def Obligations.ReadWithoutListenersFetchesThroughTheMap : Prop :=
  ∀ (s : State) (kind : ReadKind) (evt sync : Bool) (addr : Addr),
    s.booted = true → (s.inDispatch = false ∨ sync = false) → s.bucket addr = [] →
    ∃ t, exec (.rd kind evt sync addr) s = .next t ∧
      t = ({ s with cardrun := t.cardrun, suspset := t.suspset } : State).answered ((s.plainRead addr).setWidth 16) ∧
      ((evt = false ∨ sync = false ∨ pageOf addr = 0xC0) → cardsKept s t)

/-- 42_access.md R121, 20_memory.md R44, R45: a write in whose bucket no listener is stores its value in the cell the
write table selects, or nowhere, and answers the old byte: of that cell, else of the read-mapped cell, else FLOAT_BUS. -/
def Obligations.WriteWithoutListenersStoresOneCell : Prop :=
  ∀ (s : State) (evt sync : Bool) (addr : Addr) (value : Byte),
    s.booted = true → (s.inDispatch = false ∨ sync = false) → s.bucket addr = [] →
    ∃ t, exec (.wr evt sync addr value) s = .next t ∧
      (∀ b p o, isDestination (s.writeEntry (pageOf addr)) addr b p o → b ≠ .blank → t.cell b p o = value) ∧
      (∀ b p o, ¬ isDestination (s.writeEntry (pageOf addr)) addr b p o → t.cell b p o = s.cell b p o) ∧
      t = ({ s with mem := t.mem, cardrun := t.cardrun, suspset := t.suspset } : State).answered
        ((s.replacedByte addr).setWidth 16) ∧
      ((evt = false ∨ sync = false ∨ pageOf addr = 0xC0) → cardsKept s t)

/-- 42_access.md R120, R121, R124, R127, 43_dispatch.md R135: with a listener filed, RD answers the byte DISPATCH returns for
the byte the read table selected, and WR stores the byte DISPATCH returns for the value, in the cell the write table
selected before the chain ran; the chain starts after SUSPEND when SYNC = 1. A write leaves every other cell alone, listeners
or not, and answers the old byte. But for memory, RUN, the cards and the outputs all is as DISPATCH leaves it (RUN and the
cards: AccessIsNeverRefusedForItsAddress, SyncAccessRestoresTheScheduler). -/
def Obligations.AccessesTakeTheChainValueThroughTheSampledEntry : Prop :=
  ∀ (s : State) (evt sync : Bool) (addr : Addr), s.booted = true → (s.inDispatch = false ∨ sync = false) →
    (∀ kind, s.bucket addr ≠ [] →
      ∃ t, exec (.rd kind evt sync addr) s = .next t ∧
        t = { (dispatch (accessKindOf kind) addr (s.selectedByte addr) (s.selectedByte addr) (s.chainStart sync)).1 with
          run := t.run
          cardrun := t.cardrun
          suspset := t.suspset
          response := ⟨.ok, (dispatch (accessKindOf kind) addr (s.selectedByte addr) (s.selectedByte addr)
            (s.chainStart sync)).2.setWidth 16⟩ }) ∧
    (∀ value, ∃ t, exec (.wr evt sync addr value) s = .next t ∧
      (∀ b p o, ¬ isDestination (s.writeEntry (pageOf addr)) addr b p o → t.cell b p o = s.cell b p o) ∧
      t.response = ⟨.ok, (s.replacedByte addr).setWidth 16⟩ ∧
      (s.bucket addr ≠ [] →
        (∀ b p o, isDestination (s.writeEntry (pageOf addr)) addr b p o → b ≠ .blank →
          t.cell b p o = (dispatch .write addr (s.replacedByte addr) value (s.chainStart sync)).2) ∧
        t = { (dispatch .write addr (s.replacedByte addr) value (s.chainStart sync)).1 with
          mem := t.mem
          run := t.run
          cardrun := t.cardrun
          suspset := t.suspset
          response := t.response }))

/-- 42_access.md R122, 20_memory.md R49, R50: RDW is RD of `addr` and then, in the state that leaves, RD of `addr + 1` modulo
2^16, whatever their listeners do: the high byte above the low one, the events of both in that order. Without listeners it
answers the two bytes, each through its own page's entry. -/
def Obligations.WordReadIsLittleEndian : Prop :=
  ∀ (s : State) (kind : ReadKind) (evt sync : Bool) (addr : Addr),
    s.booted = true → (s.inDispatch = false ∨ sync = false) →
    (∃ mid last, exec (.rd kind evt sync addr) s = .next mid ∧ exec (.rd kind evt sync (addr + 1)) mid = .next last ∧
      exec (.rdw kind evt sync addr) s = .next { last with
        response := ⟨.ok, last.response.rdata.extractLsb' 0 8 ++ mid.response.rdata.extractLsb' 0 8⟩
        events := mid.events ++ last.events }) ∧
    (s.bucket addr = [] → s.bucket (addr + 1) = [] →
      ∃ t, exec (.rdw kind evt sync addr) s = .next t ∧
        t = ({ s with cardrun := t.cardrun, suspset := t.suspset } : State).answered
          (s.plainRead (addr + 1) ++ s.plainRead addr) ∧
        ((evt = false ∨ sync = false) → cardsKept s t))

/-- 42_access.md R123, 20_memory.md R49, R50, R62: WRW is WR of the low byte at `addr` and then, in the state that leaves, WR of
the high byte at `addr + 1` modulo 2^16, whatever their listeners do, and answers 0: so no cell changes but the one the
entry of `addr` selects and the one the entry of `addr + 1` selects after the low byte. Without listeners each byte is
where its own page's entry says, or nowhere. -/
def Obligations.WordWriteIsLittleEndian : Prop :=
  ∀ (s : State) (evt sync : Bool) (addr : Addr) (data : Word16),
    s.booted = true → (s.inDispatch = false ∨ sync = false) →
    (∃ mid last t, exec (.wr evt sync addr (data.extractLsb' 0 8)) s = .next mid ∧
      exec (.wr evt sync (addr + 1) (data.extractLsb' 8 8)) mid = .next last ∧
      exec (.wrw evt sync addr data) s = .next t ∧
      t = { last with response := ⟨.ok, 0⟩, events := mid.events ++ last.events } ∧
      (∀ b p o, ¬ isDestination (s.writeEntry (pageOf addr)) addr b p o →
        ¬ isDestination (mid.writeEntry (pageOf (addr + 1))) (addr + 1) b p o → t.cell b p o = s.cell b p o)) ∧
    (s.bucket addr = [] → s.bucket (addr + 1) = [] →
      ∃ t, exec (.wrw evt sync addr data) s = .next t ∧
        (∀ b p o, isDestination (s.writeEntry (pageOf addr)) addr b p o → b ≠ .blank →
          t.cell b p o = data.extractLsb' 0 8) ∧
        (∀ b p o, isDestination (s.writeEntry (pageOf (addr + 1))) (addr + 1) b p o → b ≠ .blank →
          t.cell b p o = data.extractLsb' 8 8) ∧
        (∀ b p o, ¬ isDestination (s.writeEntry (pageOf addr)) addr b p o →
          ¬ isDestination (s.writeEntry (pageOf (addr + 1))) (addr + 1) b p o → t.cell b p o = s.cell b p o) ∧
        t = ({ s with mem := t.mem, cardrun := t.cardrun, suspset := t.suspset } : State).answered 0 ∧
        ((evt = false ∨ sync = false) → cardsKept s t))

/-- 42_access.md R125: EVT does not show in an access with SYNC = 0; with SYNC = 1 at most in CARDRUN and SUSPSET. That it
may show there is the model's reading, not R125's (log 27, DEDUCED): an empty chain that EVT starts is still wrapped in SUSPEND
and RESUME, as the pseudocode of R120 and R121 has it. -/
def Obligations.EventFlagShowsAtMostInTheCardRecords : Prop :=
  (∀ (s : State) (kind : ReadKind) (addr : Addr) (v : Byte) (data : Word16),
    exec (.rd kind true false addr) s = exec (.rd kind false false addr) s ∧
    exec (.wr true false addr v) s = exec (.wr false false addr v) s ∧
    exec (.rdw kind true false addr) s = exec (.rdw kind false false addr) s ∧
    exec (.wrw true false addr data) s = exec (.wrw false false addr data) s) ∧
  (∀ (s t u : State) (kind : ReadKind) (addr : Addr) (v : Byte) (data : Word16),
    (exec (.rd kind true true addr) s = .next t → exec (.rd kind false true addr) s = .next u → equalButCards t u) ∧
    (exec (.wr true true addr v) s = .next t → exec (.wr false true addr v) s = .next u → equalButCards t u) ∧
    (exec (.rdw kind true true addr) s = .next t → exec (.rdw kind false true addr) s = .next u →
      equalButCards t u) ∧
    (exec (.wrw true true addr data) s = .next t → exec (.wrw false true addr data) s = .next u →
      equalButCards t u))

/-- 42_access.md R128: what is written reads back when the page is writable, mapped alike in both tables and without
listeners; and for which pages the two tables agree after a reconfiguration. -/
def Obligations.WriteThenReadRoundTrip : Prop :=
  (∀ (s : State) (addr : Addr) (v : Byte) (r : PageRef), s.booted = true → r.bank ≠ .blank →
    s.writeEntry (pageOf addr) = some r → s.readEntry (pageOf addr) = some r → s.bucket addr = [] →
    pageOf addr ≠ 0xC0 →
    ∃ t u, exec (.wr false false addr v) s = .next t ∧ exec (.rd .read false false addr) t = .next u ∧
      u.response = ⟨.ok, v.setWidth 16⟩) ∧
  (∀ (x : MapInputs) (p : Nat), p < 256 →
    ((tableEntry (writeTableOf x) p ≠ none ∧ tableEntry (writeTableOf x) p = tableEntry (readTableOf x) p) ↔
      (p ≤ 0x01 ∨
        (0x04 ≤ p ∧ p ≤ 0x07 ∧ (x.sw.store80 = true ∨ x.sw.ramrd = x.sw.ramwrt)) ∨
        (0x20 ≤ p ∧ p ≤ 0x3F ∧ ((x.sw.store80 = true ∧ x.sw.hires = true) ∨ x.sw.ramrd = x.sw.ramwrt)) ∨
        (((0x02 ≤ p ∧ p ≤ 0x03) ∨ (0x08 ≤ p ∧ p ≤ 0x1F) ∨ (0x40 ≤ p ∧ p ≤ 0xBF)) ∧ x.sw.ramrd = x.sw.ramwrt) ∨
        (0xD0 ≤ p ∧ x.sw.lcram = true ∧ x.sw.lcwrite = true))))

/-- 42_access.md R127: an access with SYNC = 1, byte or word, leaves RUN as it was; when the machine was Running and no card
was recorded it leaves the cards' run bits as they were and none recorded. -/
def Obligations.SyncAccessRestoresTheScheduler : Prop :=
  ∀ (s t : State) (addr : Addr) (evt : Bool),
    ((∃ kind, exec (.rd kind evt true addr) s = .next t) ∨ (∃ v, exec (.wr evt true addr v) s = .next t) ∨
      (∃ kind, exec (.rdw kind evt true addr) s = .next t) ∨ (∃ d, exec (.wrw evt true addr d) s = .next t)) →
    t.run = s.run ∧
    (s.run = .running → s.suspset = PerSlot.allOff → t.cardrun = s.cardrun ∧ t.suspset = PerSlot.allOff)

/-! ## The event dispatcher -/

/-- 43_dispatch.md R135, R136, R137: the two listeners of a bucket take their turns in registration order, the first on the
caller's value, the second on what the first left, both with the same old byte, for reads and writes; a listener whose scope,
type filter or value mask does not match is skipped. The last value is what a read answers and a write stores. With any number
of listeners, all of them skipped, no one is called and the value is the caller's. -/
def Obligations.ListenersRunInRegistrationOrder : Prop :=
  (∀ (s : State) (evt : Bool) (addr : Addr) (l1 l2 : Listener) (e1 e2 : ValueExpr),
    s.booted = true → s.bucket addr = [l1, l2] →
    l1.role = .plain → l2.role = .plain → l1.device = .program [] e1 → l2.device = .program [] e2 →
    (∀ kind, ∃ (t : State) (v1 v2 : Byte) (calls1 calls2 : List Event),
      exec (.rd kind evt false addr) s = .next t ∧
      listenerTurn l1 e1 s.sw (accessKindOf kind) addr (s.selectedByte addr) (s.selectedByte addr) v1 calls1 ∧
      listenerTurn l2 e2 s.sw (accessKindOf kind) addr (s.selectedByte addr) v1 v2 calls2 ∧
      t = { s with response := ⟨.ok, v2.setWidth 16⟩, events := calls1 ++ calls2 }) ∧
    (∀ value, ∃ (t : State) (v1 v2 : Byte) (calls1 calls2 : List Event),
      exec (.wr evt false addr value) s = .next t ∧
      listenerTurn l1 e1 s.sw .write addr (s.replacedByte addr) value v1 calls1 ∧
      listenerTurn l2 e2 s.sw .write addr (s.replacedByte addr) v1 v2 calls2 ∧
      (∀ b p o, isDestination (s.writeEntry (pageOf addr)) addr b p o → b ≠ .blank → t.cell b p o = v2) ∧
      t = { s with
        mem := t.mem
        response := ⟨.ok, (s.replacedByte addr).setWidth 16⟩
        events := calls1 ++ calls2 })) ∧
  (∀ (s : State) (evt sync : Bool) (addr : Addr),
    s.booted = true → (s.inDispatch = false ∨ sync = false) → s.bucket addr ≠ [] →
    (∀ kind, (∀ l ∈ s.bucket addr, skipped l (accessKindOf kind) addr (s.selectedByte addr)) →
      ∃ t, exec (.rd kind evt sync addr) s = .next t ∧ t.events = [] ∧
        t.response = ⟨.ok, (s.selectedByte addr).setWidth 16⟩) ∧
    (∀ value, (∀ l ∈ s.bucket addr, skipped l .write addr value) →
      ∃ t, exec (.wr evt sync addr value) s = .next t ∧ t.events = [] ∧
        ∀ b p o, isDestination (s.writeEntry (pageOf addr)) addr b p o → b ≠ .blank → t.cell b p o = value))

/-- 10_state.md R24, 43_dispatch.md R139: with the index current, an access's bucket is a sublist of the registry, in
registration order; it holds exactly the registered listeners whose scope takes in the register, in the I/O hole, or meets the
address's page, elsewhere; so it misses none whose scope covers the address. -/
def Obligations.IndexMissesNoListener : Prop :=
  ∀ (s : State) (addr : Addr), s.indexCurrent →
    (s.bucket addr).Sublist s.lreg ∧
    (∀ l, l ∈ s.bucket addr ↔ l ∈ s.lreg ∧
      (if pageOf addr = 0xC0 then l.scope.lo ≤ addr.toNat ∧ addr.toNat ≤ l.scope.hi
        else l.scope.lo / 256 ≤ pageOf addr ∧ pageOf addr ≤ l.scope.hi / 256)) ∧
    ∀ l ∈ s.lreg, l.scope.covers addr = true → l ∈ s.bucket addr

/-- 43_dispatch.md R143: listeners that only observe change neither the byte a read returns nor the byte a write
stores. -/
def Obligations.ObserversNeverChangeAnAccess : Prop :=
  ∀ (s : State) (evt sync : Bool) (addr : Addr), s.booted = true → (s.inDispatch = false ∨ sync = false) →
    (∀ l ∈ s.bucket addr, isObserver l = true) →
    (∀ kind, s.bucket addr ≠ [] → ∃ t, exec (.rd kind evt sync addr) s = .next t ∧
      t.response = ⟨.ok, (s.selectedByte addr).setWidth 16⟩) ∧
    (∀ value, ∃ t, exec (.wr evt sync addr value) s = .next t ∧
      ∀ b p o, isDestination (s.writeEntry (pageOf addr)) addr b p o → b ≠ .blank → t.cell b p o = value)

/-- 43_dispatch.md R140: LADD appends the record its id names unless a listener of that id is registered, and rebuilds the
index. -/
def Obligations.LaddRegistersOnce : Prop :=
  ∀ (s : State) (id : Word16) (l : Listener), s.booted = true → s.inDispatch = false → s.run ≠ .running →
    s.env.record? id = some l →
    exec (.ladd id) s = .next (({ s with
      lreg := if s.lreg.any (fun k => k.id == id) then s.lreg else s.lreg ++ [l] } : State).reindexed.answered 0)

/-- 43_dispatch.md R141: LREM removes the listeners of that id, keeps the order of the others, rebuilds the index; an id
that is not registered changes nothing. -/
def Obligations.LremRemovesKeepingOrder : Prop :=
  ∀ (s : State) (id : Word16), s.booted = true → s.inDispatch = false → s.run ≠ .running →
    ∃ ls : List Listener, exec (.lrem id) s = .next (({ s with lreg := ls } : State).reindexed.answered 0) ∧
      ls.Sublist s.lreg ∧ (∀ l, l ∈ ls ↔ l ∈ s.lreg ∧ l.id ≠ id) ∧
      ((∀ l ∈ s.lreg, l.id ≠ id) → ls = s.lreg)

/-- 43_dispatch.md R138: a nested operation of a callback runs as in its own rule: it has the effect and the response the
transaction has at the port inside a dispatch. -/
def Obligations.NestedOperationsActAsTheirTransactions : Prop :=
  ∀ (i : Instr) (s : State), s.inDispatch = true →
    ((∃ k, i = .swget k) ∨ (∃ k v, i = .swset k v) ∨ (∃ k, i = .swtgl k) ∨ (∃ n, i = .slotsel n) ∨
      (∃ b p o, i = .bankrd b p o) ∨ (∃ id, i = .spdreq id) ∨ (∃ id, i = .spdrel id)) →
    ∃ t, exec i s = .next t ∧
      runNested i s = ({ t with response := s.response, events := s.events }, t.response)

/-! ## Cards -/

/-- 44_cards.md R150: CATT of a card that initialises: images, OCC, CARDRUN, the three listeners, the index, the map, the
answer 1; no other cell, and not ASL. -/
def Obligations.CattInstallsTheCard : Prop :=
  ∀ (s : State) (n : Slot), s.booted = true → s.inDispatch = false → s.run ≠ .running → s.occ.get n = false →
    (s.env.cards.get n).initOk = true →
    ∃ t, exec (.catt n) s = .next t ∧
      (∀ i : Nat, (h : i < 256) → t.cell (.fw n) 0 (BitVec.ofNat 8 i) = (s.env.cards.get n).fw[i]) ∧
      (∀ i : Nat, (h : i < 2048) →
        t.cell (.exp n) (BitVec.ofNat 8 (i / 256)) (BitVec.ofNat 8 (i % 256)) = (s.env.cards.get n).exp[i]) ∧
      (∀ b p o, b ≠ .fw n → b ≠ .exp n → t.cell b p o = s.cell b p o) ∧
      t = ({ s with
        mem := t.mem
        occ := s.occ.set n true
        cardrun := s.cardrun.set n true
        lreg := s.lreg ++ cardListeners n (s.env.cards.get n) } : State).reindexed.remapped.answered 1

/-- 44_cards.md R157: a card that fails to initialise changes nothing and is not refused. -/
def Obligations.FailedCattChangesNothing : Prop :=
  ∀ (s : State) (n : Slot), s.booted = true → s.inDispatch = false → s.run ≠ .running → s.occ.get n = false →
    (s.env.cards.get n).initOk = false → exec (.catt n) s = .next (s.answered 0)

/-- 44_cards.md R151: CDET removes the card's three listeners, then OCC, CARDRUN and the SUSPSET record; index and map
are rebuilt; ASL stays. Which listeners those are is the model's choice (log 18, DESIGN CHOICE, unsafe): the ones of owner n that
have one of slot n's three ids, and no other listener of owner n. That the cells of FW_n and EXP_n stay rests on
10_state.md R14; R151 calls their contents unspecified. -/
def Obligations.CdetRemovesTheCard : Prop :=
  ∀ (s : State) (n : Slot), s.booted = true → s.inDispatch = false → s.run ≠ .running → s.occ.get n = true →
    exec (.cdet n) s = .next (({ s with
      lreg := s.lreg.filter (fun l => !(decide (l.owner = some n) &&
        (l.id.toNat == 0xFF00 + 16 * n.number || l.id.toNat == 0xFF01 + 16 * n.number ||
          l.id.toNat == 0xFF02 + 16 * n.number)))
      occ := s.occ.set n false
      cardrun := s.cardrun.set n false
      suspset := s.suspset.set n false } : State).reindexed.remapped.answered 0)

/-- 44_cards.md R152: CRECFG, in any RUN: suspend if running, detach, attach, resume if it was running. The slot ends
occupied or, if the card fails to initialise, empty; its listeners end last in the order; RUN and ASL stay. Which listeners
the detach removes, isCardListener's, is the model's choice (log 18, DESIGN CHOICE, unsafe): the ones of owner n that have one
of slot n's three ids. -/
def Obligations.CrecfgDetachesThenAttaches : Prop :=
  ∀ (s : State) (n : Slot), s.booted = true → s.inDispatch = false → s.occ.get n = true →
    ∃ t, exec (.crecfg n) s = .next t ∧
      t.response = ⟨.ok, if (s.env.cards.get n).initOk then 1 else 0⟩ ∧
      t.occ = s.occ.set n (s.env.cards.get n).initOk ∧
      t.lreg = s.lreg.filter (fun l => !isCardListener n l) ++
        (if (s.env.cards.get n).initOk then cardListeners n (s.env.cards.get n) else []) ∧
      t.indexCurrent ∧ t.mapCurrent ∧
      t.run = s.run ∧
      (∀ m, t.cardrun.get m =
        if m = n then (s.env.cards.get n).initOk
        else if s.run = .running then (s.suspset.get m || s.cardrun.get m) else s.cardrun.get m) ∧
      (∀ m, t.suspset.get m = if m = n ∨ s.run = .running then false else s.suspset.get m) ∧
      (∀ i : Nat, (h : i < 256) → (s.env.cards.get n).initOk = true →
        t.cell (.fw n) 0 (BitVec.ofNat 8 i) = (s.env.cards.get n).fw[i]) ∧
      (∀ i : Nat, (h : i < 2048) → (s.env.cards.get n).initOk = true →
        t.cell (.exp n) (BitVec.ofNat 8 (i / 256)) (BitVec.ofNat 8 (i % 256)) = (s.env.cards.get n).exp[i]) ∧
      (∀ b p o, b ≠ .fw n → b ≠ .exp n → t.cell b p o = s.cell b p o) ∧
      t.sw = s.sw ∧ t.asl = s.asl ∧ t.divcnt = s.divcnt ∧ t.speedset = s.speedset ∧ t.booted = s.booted ∧
      t.inDispatch = s.inDispatch ∧ t.params = s.params ∧ t.env = s.env ∧ t.pending = s.pending ∧ t.events = []

/-- 44_cards.md R153: SLOTSEL sets ASL and rebuilds both tables; only `RT[$C8..$CF]` can differ, and only when INTCXROM
and INTC8ROM are off. -/
def Obligations.SlotselMovesOnlyTheExpansionWindow : Prop :=
  ∀ (s : State) (n : Option Slot), s.booted = true → (s.inDispatch = true ∨ s.run ≠ .running) →
    ∃ t, exec (.slotsel n) s = .next t ∧
      t = ({ s with asl := n } : State).remapped.answered 0 ∧
      (s.mapCurrent → t.wt = s.wt ∧
        (∀ p, p < 0xC8 ∨ 0xCF < p ∨ s.sw.intcxrom = true ∨ s.sw.intc8rom = true → t.readEntry p = s.readEntry p))

/-- 44_cards.md R155: a read or fetch in the firmware window of an occupied slot sets ASL to the slot and rebuilds the map;
its own byte is fetched through the old map; a write leaves ASL alone. The card's own part only observes here. -/
def Obligations.FirmwareReadSetsTheLatch : Prop :=
  ∀ (s : State) (n : Slot) (c : Card) (evt : Bool) (addr : Addr), s.booted = true →
    pageOf addr = 0xC0 + n.number → s.bucket addr = [cardFirmwareListener n c] → c.firmware = .program [] .cur →
    (∀ kind, ∃ t, exec (.rd kind evt false addr) s = .next t ∧
      t.asl = some n ∧ t.rt = closedReadTable ⟨s.sw, s.occ, some n⟩ ∧
      t.wt = closedWriteTable ⟨s.sw, s.occ, some n⟩ ∧
      t.response = ⟨.ok, (s.selectedByte addr).setWidth 16⟩) ∧
    (∀ value, ∃ t, exec (.wr evt false addr value) s = .next t ∧ t.asl = s.asl ∧ t.rt = s.rt ∧ t.wt = s.wt)

/-- 44_cards.md R156: the expansion-ROM listener of slot n, alone in the bucket, is called once, by reads and writes. While
ASL is not n or INTC8ROM is on, it returns the byte it is given and has no effect, whatever its device is; while ASL is n and
INTC8ROM is off, its device runs. -/
def Obligations.ExpansionListenerIsGated : Prop :=
  ∀ (s : State) (n : Slot) (c : Card) (evt : Bool) (addr : Addr), s.booted = true →
    0xC8 ≤ pageOf addr → pageOf addr ≤ 0xCF → s.bucket addr = [cardExpansionListener n c] →
    (∀ kind, ∃ (t : State) (call : Call),
      call = ⟨BitVec.ofNat 16 (0xFF02 + 16 * n.number), accessKindOf kind, addr, registerOffset addr,
        s.selectedByte addr, s.selectedByte addr⟩ ∧
      exec (.rd kind evt false addr) s = .next t ∧
      ((s.asl ≠ some n ∨ s.sw.intc8rom = true) →
        t = { s.answered ((s.selectedByte addr).setWidth 16) with events := [.call call] }) ∧
      (s.asl = some n → s.sw.intc8rom = false →
        t = { (runDevice c.expansion call { s with inDispatch := true, events := [.call call] }).1 with
          inDispatch := s.inDispatch
          response := ⟨.ok, (runDevice c.expansion call
            { s with inDispatch := true, events := [.call call] }).2.setWidth 16⟩ })) ∧
    (∀ value, ∃ (t : State) (call : Call),
      call = ⟨BitVec.ofNat 16 (0xFF02 + 16 * n.number), .write, addr, registerOffset addr, s.replacedByte addr, value⟩ ∧
      exec (.wr evt false addr value) s = .next t ∧
      (∀ b p o, ¬ isDestination (s.writeEntry (pageOf addr)) addr b p o → t.cell b p o = s.cell b p o) ∧
      ((s.asl ≠ some n ∨ s.sw.intc8rom = true) →
        (∀ b p o, isDestination (s.writeEntry (pageOf addr)) addr b p o → b ≠ .blank → t.cell b p o = value) ∧
        t = { ({ s with mem := t.mem } : State).answered ((s.replacedByte addr).setWidth 16) with
          events := [.call call] }) ∧
      (s.asl = some n → s.sw.intc8rom = false →
        (∀ b p o, isDestination (s.writeEntry (pageOf addr)) addr b p o → b ≠ .blank →
          t.cell b p o = (runDevice c.expansion call { s with inDispatch := true, events := [.call call] }).2) ∧
        t = { (runDevice c.expansion call { s with inDispatch := true, events := [.call call] }).1 with
          mem := t.mem
          inDispatch := s.inDispatch
          response := ⟨.ok, (s.replacedByte addr).setWidth 16⟩ }))

/-! ## The scheduler -/

/-- 45_scheduler.md R160, R168: TICK ticks the CPU first, counts DIVCNT down, and on zero reloads it and ticks video, the
card of every occupied slot and every miscellaneous device, in that order. Each step makes its accesses, those before its
fault if it faults, with what each does at the port and nothing more; so where no step makes one, DIVCNT is all TICK writes. It
leaves RUN, slots, listeners and index alone. That DIVCNT = 0, which no run reaches, counts as expiry too is the model's choice
(log 28, DESIGN CHOICE). -/
def Obligations.TickCountsDownAndTicksDevicesOnExpiry : Prop :=
  ∀ s : State, s.booted = true → s.inDispatch = false → s.run = .running →
    ∃ t, exec .tick s = .next t ∧
      t = { (ticksAtPort s.tickOrder s).1 with
        divcnt := if s.divcnt ≤ 1 then s.params.clockDivisor else s.divcnt - 1
        response := ⟨.ok, 0⟩
        events := (ticksAtPort s.tickOrder s).2 } ∧
      t.events.head? = some (.tick .cpu) ∧
      (Event.tick .video ∈ t.events ↔ s.divcnt ≤ 1) ∧
      (∀ n, Event.tick (.card n) ∈ t.events ↔ s.divcnt ≤ 1 ∧ s.occ.get n = true) ∧
      (∀ k, Event.tick (.misc k) ∈ t.events ↔ s.divcnt ≤ 1 ∧ k < s.env.ticks.misc.length) ∧
      t.run = .running ∧ t.occ = s.occ ∧ t.lreg = s.lreg ∧ t.pidx = s.pidx ∧ t.ridx = s.ridx ∧
      t.cardrun = s.cardrun ∧ t.suspset = s.suspset ∧ t.booted = true ∧ t.inDispatch = false ∧
      t.params = s.params ∧ t.pending = s.pending ∧
      (s.env.ticks.cpu.kept = [] → s.env.ticks.video.kept = [] → (∀ n, (s.env.ticks.cards.get n).kept = []) →
        (∀ p ∈ s.env.ticks.misc, p.kept = []) →
        t = { s with divcnt := t.divcnt, response := t.response, events := t.events })

/-- 45_scheduler.md R161: PAUSE answers whether the machine was running, and then pauses it. -/
def Obligations.PauseAnswersWhetherRunning : Prop :=
  ∀ s : State, s.booted = true → s.inDispatch = false →
    (s.run = .running → exec .pause s = .next (({ s with run := .paused } : State).answered 1)) ∧
    (s.run ≠ .running → exec .pause s = .next (s.answered 0))

/-- 45_scheduler.md R162: RESUME of a paused machine sets it running and restarts exactly the recorded cards; of a running
one it changes nothing. -/
def Obligations.ResumeRestartsTheRecordedCards : Prop :=
  ∀ s : State, s.booted = true → s.inDispatch = false →
    (s.run = .paused → ∃ t, exec .resume s = .next t ∧
      (∀ n, t.cardrun.get n = true ↔ s.suspset.get n = true ∨ s.cardrun.get n = true) ∧
      (∀ n, t.suspset.get n = false) ∧
      t = ({ s with run := .running, cardrun := t.cardrun, suspset := t.suspset } : State).answered 0) ∧
    (s.run = .running → exec .resume s = .next (s.answered 0))

/-- 45_scheduler.md R163: SUSPEND does what PAUSE does, stops the running cards that suspend with the CPU, and records
exactly those beside what was recorded before. -/
def Obligations.SuspendRecordsTheSubset : Prop :=
  ∀ s : State, s.booted = true → s.inDispatch = false →
    ∃ t, exec .suspend s = .next t ∧
      (∀ n, t.cardrun.get n = true ↔ s.cardrun.get n = true ∧
        ¬ (s.occ.get n = true ∧ (s.env.cards.get n).suspendsWithCpu = true)) ∧
      (∀ n, t.suspset.get n = true ↔ s.suspset.get n = true ∨
        (s.cardrun.get n = true ∧ s.occ.get n = true ∧ (s.env.cards.get n).suspendsWithCpu = true)) ∧
      t = ({ s with
        run := if s.run = .running then .paused else s.run
        cardrun := t.cardrun
        suspset := t.suspset } : State).answered (if s.run = .running then 1 else 0)

/-- 45_scheduler.md R164, R165: START of a stopped machine sets it running, of a running one changes nothing; STOP stops
it in any state and empties SUSPSET. -/
def Obligations.StartAndStopMoveRun : Prop :=
  ∀ s : State, s.booted = true → s.inDispatch = false →
    (s.run ≠ .paused → exec .start s = .next (({ s with run := .running } : State).answered 0)) ∧
    ∃ t, exec .stop s = .next t ∧ (∀ n, t.suspset.get n = false) ∧
      t = ({ s with run := .stopped, suspset := t.suspset } : State).answered 0

/-- 45_scheduler.md R166, R167: SPDREQ adds one occurrence of its id to SPEEDSET; SPDREL removes one, if there is one;
no other id's count changes and nothing else does. -/
def Obligations.SpeedRequestsCountOccurrences : Prop :=
  ∀ (s : State) (id : Word16), s.booted = true →
    (∃ t, exec (.spdreq id) s = .next t ∧
      (∀ x, t.speedset.count x = s.speedset.count x + if x = id then 1 else 0) ∧
      t = ({ s with speedset := t.speedset } : State).answered 0) ∧
    (∃ t, exec (.spdrel id) s = .next t ∧
      (∀ x, t.speedset.count x = s.speedset.count x - if x = id then 1 else 0) ∧
      t = ({ s with speedset := t.speedset } : State).answered 0)

/-! ## Reset -/

/-- 70_reset_and_hazards.md R190: COLDRST, in every RUN and before or after the first reset. ROM, CROM and blank cells
stay, and card cells too (10_state.md R14); no cell of a RAM-type bank keeps a stored byte, and the model's epoch, which picks the
free values such cells then read as, moves on by one (logs 6, 7). -/
def Obligations.ColdResetState : Prop :=
  ∀ s : State, s.inDispatch = false →
    ∃ t, exec .coldrst s = .next t ∧
      (∀ b p o, b.ramType = false → t.cell b p o = s.cell b p o) ∧
      (∀ b p o, b.ramType = true → t.mem.read? (cellNumber b p o) = none) ∧
      (∀ n, t.occ.get n = false ∧ t.cardrun.get n = false ∧ t.suspset.get n = false) ∧
      t = ({ s with
        mem := t.mem
        ramEpoch := s.ramEpoch + 1
        sw := s.params.swDefault
        occ := t.occ
        cardrun := t.cardrun
        suspset := t.suspset
        asl := none
        lreg := s.params.switchBinding
        run := .stopped
        divcnt := s.params.clockDivisor
        speedset := []
        booted := true } : State).reindexed.remapped.answered 0

/-- 70_reset_and_hazards.md R193: the tables after COLDRST with the spec's default switches, and with any other default
those of 41_mmu.md R113 for that vector. -/
def Obligations.ColdResetTables : Prop :=
  ∀ s t : State, s.inDispatch = false → exec .coldrst s = .next t →
    (∀ p, p < 256 → t.readEntry p = closedRead ⟨s.params.swDefault, PerSlot.allOff, none⟩ p ∧
      t.writeEntry p = closedWrite ⟨s.params.swDefault, PerSlot.allOff, none⟩ p) ∧
    (s.params.swDefault = Switches.allOff →
      (∀ p, p ≤ 0xBF → t.readEntry p = some ⟨.main, BitVec.ofNat 8 p⟩ ∧ t.writeEntry p = some ⟨.main, BitVec.ofNat 8 p⟩) ∧
      (∀ p, 0xC0 ≤ p → p ≤ 0xCF → p ≠ 0xC3 → t.readEntry p = some ⟨.blank, 0⟩) ∧
      t.readEntry 0xC3 = some ⟨.crom, 3⟩ ∧
      (∀ p, 0xD0 ≤ p → p ≤ 0xFF → t.readEntry p = some ⟨.rom, BitVec.ofNat 8 (p - 0xD0)⟩) ∧
      (∀ p, 0xC0 ≤ p → p ≤ 0xFF → t.writeEntry p = none))

/-- 70_reset_and_hazards.md R191: WARMRST resets the switches, clears ASL when WARM_CLEARS_ASL says so, rebuilds both
tables, and writes nothing else. -/
def Obligations.WarmResetState : Prop :=
  ∀ s : State, s.booted = true → s.inDispatch = false → s.run ≠ .running →
    exec .warmrst s = .next (({ s with
      sw := s.params.swDefault
      asl := if s.params.warmClearsAsl then none else s.asl } : State).remapped.answered 0)

/-- 70_reset_and_hazards.md R192: ROMLOAD puts byte i of a 0x4000-byte stream at `$C000 + i`: the first 0x1000 bytes in CROM,
the others in ROM; no other cell and nothing else changes. -/
def Obligations.RomloadPlacesTheStream : Prop :=
  ∀ s : State, s.inDispatch = false → s.env.romStream.length = 0x4000 → (s.booted = false ∨ s.run = .stopped) →
    ∃ t, exec .romload s = .next t ∧
      (∀ i : Nat, (h : i < s.env.romStream.length) →
        (i < 0x1000 →
          t.cell .crom (BitVec.ofNat 8 (i / 256)) (BitVec.ofNat 8 (i % 256)) = s.env.romStream[i]) ∧
        (0x1000 ≤ i →
          t.cell .rom (BitVec.ofNat 8 ((i - 0x1000) / 256)) (BitVec.ofNat 8 (i % 256)) = s.env.romStream[i])) ∧
      (∀ b p o, b ≠ .crom → b ≠ .rom → t.cell b p o = s.cell b p o) ∧
      t = ({ s with mem := t.mem } : State).answered 0

/-! ## Invariants -/

/-- The invariant at reset (10_state.md R28). -/
def Obligations.ResetMeetsTheInvariant : Prop := State.reset.Inv

/-- 70_reset_and_hazards.md R203, 10_state.md R17, R24, R25: from every state that meets the invariant, a step gives one that
meets it: memory canonical and only where cells are, tables and index current, DIVCNT in range, recorded cards in
occupied slots. -/
def Obligations.EveryStepKeepsTheInvariant : Prop := ∀ s t : State, s.Inv → step s = .next t → t.Inv
end

