-- ==== Sys2Proof/Laws/Data.lean ====
section
/-! SUPPORT. Laws of the small data: per-slot vectors, the switch registry, the numbers of slots, switches and banks, the
speed-request multiset. -/

namespace Sys2Proof

theorem Slot.ofNumber_number (n : Slot) : Slot.ofNumber? n.number = some n := by cases n <;> rfl

theorem Slot.number_bounds (n : Slot) : 1 ≤ n.number ∧ n.number ≤ 7 := by cases n <;> decide

theorem Slot.mem_all (n : Slot) : n ∈ Slot.all := by cases n <;> decide

theorem slotOption_ofNumber (n : Option Slot) : Slot.ofNumber? (slotOptionNumber n) = n := by
  cases n with
  | none => rfl
  | some n => exact Slot.ofNumber_number n

theorem Switch.ofIndex_index (k : Switch) : Switch.ofIndex? k.index = some k := by cases k <;> rfl

theorem Switch.index_le (k : Switch) : k.index ≤ 11 := by cases k <;> decide

theorem Bank.ofId_id (b : Bank) : Bank.ofId? b.id = some b := by
  cases b with
  | fw n => cases n <;> rfl
  | exp n => cases n <;> rfl
  | main => rfl
  | aux => rfl
  | rom => rfl
  | crom => rfl
  | lcMain => rfl
  | lcAux => rfl
  | lc2Main => rfl
  | lc2Aux => rfl
  | blank => rfl

theorem Bank.id_lt (b : Bank) : b.id < 24 := by
  cases b with
  | fw n => have := n.number_bounds; simp only [Bank.id]; omega
  | exp n => have := n.number_bounds; simp only [Bank.id]; omega
  | main => decide
  | aux => decide
  | rom => decide
  | crom => decide
  | lcMain => decide
  | lcAux => decide
  | lc2Main => decide
  | lc2Aux => decide
  | blank => decide

/-- Two banks with the same id are the same bank. -/
theorem Bank.id_injective {b c : Bank} (h : b.id = c.id) : b = c := by
  have := Bank.ofId_id b
  rw [h, Bank.ofId_id] at this
  exact (Option.some.inj this).symm

namespace Machine

@[simp] theorem PerSlot.get_set_same {α : Type} (v : PerSlot α) (n : Slot) (x : α) : (v.set n x).get n = x := by
  cases n <;> rfl

theorem PerSlot.get_set_other {α : Type} (v : PerSlot α) {n m : Slot} (x : α) (h : m ≠ n) :
    (v.set n x).get m = v.get m := by
  cases n <;> cases m <;> first | rfl | exact absurd rfl h

theorem PerSlot.get_set {α : Type} (v : PerSlot α) (n m : Slot) (x : α) :
    (v.set n x).get m = if m = n then x else v.get m := by
  split
  · next h => rw [h, PerSlot.get_set_same]
  · next h => exact PerSlot.get_set_other v x h

@[simp] theorem PerSlot.get_tabulate {α : Type} (f : Slot → α) (n : Slot) : (PerSlot.tabulate f).get n = f n := by
  cases n <;> rfl

@[simp] theorem PerSlot.get_allOff (n : Slot) : PerSlot.allOff.get n = false := by cases n <;> rfl

/-- Per-slot vectors with equal values are equal. -/
theorem PerSlot.ext_get {α : Type} {v w : PerSlot α} (h : ∀ n, v.get n = w.get n) : v = w := by
  cases v; cases w
  have h1 := h .s1; have h2 := h .s2; have h3 := h .s3; have h4 := h .s4
  have h5 := h .s5; have h6 := h .s6; have h7 := h .s7
  simp only [PerSlot.get] at h1 h2 h3 h4 h5 h6 h7
  simp only [h1, h2, h3, h4, h5, h6, h7]

@[simp] theorem Switches.get_set_same (v : Switches) (k : Switch) (x : Bool) : (v.set k x).get k = x := by
  cases k <;> rfl

theorem Switches.get_set_other (v : Switches) {k j : Switch} (x : Bool) (h : j ≠ k) : (v.set k x).get j = v.get j := by
  cases k <;> cases j <;> first | rfl | exact absurd rfl h

@[simp] theorem Switches.set_set (v : Switches) (k : Switch) (x y : Bool) : (v.set k x).set k y = v.set k y := by
  cases k <;> rfl

@[simp] theorem Switches.set_get (v : Switches) (k : Switch) : v.set k (v.get k) = v := by cases k <;> rfl

/-- `SWV[k] = SW[k]` (30_encoding.md R77). -/
theorem Switches.vector_bit (v : Switches) (k : Switch) : v.vector.getLsbD k.index = v.get k := by
  rw [Switches.vector]
  cases k <;> simp only [BitVec.getLsbD_append, Switch.index, Switches.get, BitVec.getLsbD_ofBool] <;> simp

/-- The registry of a vector is the registry the vector was made from. -/
theorem Switches.ofVector_vector (v : Switches) : Switches.ofVector v.vector = v := by
  have h := v.vector_bit
  have h0 := h .ramrd; have h1 := h .ramwrt; have h2 := h .lcram; have h3 := h .lcwrite
  have h4 := h .lcbank1; have h5 := h .auxzp; have h6 := h .store80; have h7 := h .hires
  have h8 := h .page2; have h9 := h .intcxrom; have h10 := h .slotc3rom; have h11 := h .intc8rom
  simp only [Switch.index, Switches.get] at h0 h1 h2 h3 h4 h5 h6 h7 h8 h9 h10 h11
  simp only [Switches.ofVector, h0, h1, h2, h3, h4, h5, h6, h7, h8, h9, h10, h11]

/-- One more occurrence of the added id, no change for any other (45_scheduler.md R166). -/
theorem count_addRequest (id x : Word16) (xs : List Word16) :
    (addRequest id xs).count x = xs.count x + if x = id then 1 else 0 := by
  induction xs with
  | nil =>
    by_cases h : x = id
    · simp [addRequest, h]
    · simp [addRequest, h, Ne.symm h]
  | cons y ys ih =>
    rw [addRequest]
    split
    · by_cases h : x = id
      · simp [h]
      · simp [h, List.count_cons_of_ne (Ne.symm h)]
    · rw [List.count_cons, ih, List.count_cons]; omega

/-- The multiset stays sorted (log 20). -/
theorem addRequest_sorted (id : Word16) (xs : List Word16) (h : xs.Pairwise fun x y => x.toNat ≤ y.toNat) :
    (addRequest id xs).Pairwise fun x y => x.toNat ≤ y.toNat := by
  induction xs with
  | nil => simp [addRequest]
  | cons y ys ih =>
    rw [addRequest]
    obtain ⟨hy, hys⟩ := List.pairwise_cons.mp h
    split
    · next hle =>
      refine List.pairwise_cons.mpr ⟨fun z hz => ?_, h⟩
      rcases List.mem_cons.mp hz with rfl | hz
      · exact hle
      · exact Nat.le_trans hle (hy z hz)
    · next hgt =>
      refine List.pairwise_cons.mpr ⟨fun z hz => ?_, ih hys⟩
      have hc := count_addRequest id z ys
      have hpos : 0 < (addRequest id ys).count z := List.count_pos_iff.mpr hz
      by_cases hz' : z = id
      · subst hz'; omega
      · rw [hc, if_neg hz'] at hpos
        exact hy z (List.count_pos_iff.mp (by omega))

end Machine

end Sys2Proof
end

