-- ==== Sys2Proof/Laws/Memory.lean ====
section
/-! SUPPORT. Laws of the bank space: reading after writing, and that every operation keeps the canonical form. -/

namespace Sys2Proof.Machine

@[simp] theorem Memory.read_nil (a : Nat) : Memory.read? [] a = none := rfl

theorem Memory.read_cons (k : Nat) (v : Byte) (m : Memory) (a : Nat) :
    Memory.read? ((k, v) :: m) a = if a = k then some v else Memory.read? m a := rfl

theorem Memory.read_write_same (m : Memory) (a : Nat) (v : Byte) : Memory.read? (Memory.write m a v) a = some v := by
  induction m with
  | nil => simp [Memory.write, Memory.read_cons]
  | cons c m ih =>
    obtain ⟨k, w⟩ := c
    simp only [Memory.write]
    split
    · simp [Memory.read_cons]
    · split
      · simp [Memory.read_cons]
      · next h => rw [Memory.read_cons, if_neg h, ih]

theorem Memory.read_write_other (m : Memory) {a b : Nat} (v : Byte) (h : b ≠ a) :
    Memory.read? (Memory.write m a v) b = Memory.read? m b := by
  induction m with
  | nil => simp [Memory.write, Memory.read_cons, h]
  | cons c m ih =>
    obtain ⟨k, w⟩ := c
    simp only [Memory.write]
    split
    · rw [Memory.read_cons, if_neg h]
    · split
      · next hk => subst hk; rw [Memory.read_cons, if_neg h, Memory.read_cons, if_neg h]
      · rw [Memory.read_cons, ih, Memory.read_cons]

theorem Memory.mem_write {m : Memory} {a : Nat} {v : Byte} {c : Host.Cell} (h : c ∈ Memory.write m a v) :
    c = (a, v) ∨ c ∈ m := by
  induction m with
  | nil => simpa [Memory.write] using h
  | cons d m ih =>
    obtain ⟨k, w⟩ := d
    simp only [Memory.write] at h
    split at h
    · simpa using h
    · split at h
      · rcases List.mem_cons.mp h with h | h
        · exact .inl h
        · exact .inr (List.mem_cons_of_mem _ h)
      · rcases List.mem_cons.mp h with h | h
        · exact .inr (by simp [h])
        · exact (ih h).imp id (List.mem_cons_of_mem _)

/-- A byte store keeps the canonical form. -/
theorem Memory.wf_write {m : Memory} (hm : Memory.wf m) (a : Nat) (v : Byte) : Memory.wf (Memory.write m a v) := by
  induction m with
  | nil => simp [Memory.write, Memory.wf]
  | cons c m ih =>
    obtain ⟨k, w⟩ := c
    obtain ⟨hk, hm'⟩ := List.pairwise_cons.mp hm
    simp only [Memory.write]
    split
    · next hlt =>
      refine List.pairwise_cons.mpr ⟨fun d hd => ?_, hm⟩
      rcases List.mem_cons.mp hd with rfl | hd
      · exact hlt
      · exact Nat.lt_trans hlt (hk d hd)
    · split
      · next _ he => subst he; exact List.pairwise_cons.mpr ⟨fun d hd => hk d hd, hm'⟩
      · next hge hne =>
        refine List.pairwise_cons.mpr ⟨fun d hd => ?_, ih hm'⟩
        rcases Memory.mem_write hd with rfl | hd
        · simp only; omega
        · exact hk d hd

theorem Memory.mem_cellsFrom {a : Nat} {bs : List Byte} {c : Host.Cell} (h : c ∈ Memory.cellsFrom a bs) :
    a ≤ c.1 ∧ c.1 < a + bs.length := by
  induction bs generalizing a with
  | nil => simp [Memory.cellsFrom] at h
  | cons b bs ih =>
    rcases List.mem_cons.mp h with rfl | h
    · simp
    · have := ih h; simp only [List.length_cons]; omega

theorem Memory.wf_cellsFrom (a : Nat) (bs : List Byte) : Memory.wf (Memory.cellsFrom a bs) := by
  induction bs generalizing a with
  | nil => simp [Memory.cellsFrom, Memory.wf]
  | cons b bs ih =>
    refine List.pairwise_cons.mpr ⟨fun c hc => ?_, ih (a + 1)⟩
    have := (Memory.mem_cellsFrom hc).1
    simp only; omega

theorem Memory.mem_writeBlock {m : Memory} {a : Nat} {bs : List Byte} {c : Host.Cell}
    (h : c ∈ Memory.writeBlock m a bs) : (a ≤ c.1 ∧ c.1 < a + bs.length) ∨ c ∈ m := by
  simp only [Memory.writeBlock, List.mem_append, List.mem_filter] at h
  rcases h with (h | h) | h
  · exact .inr h.1
  · exact .inl (Memory.mem_cellsFrom h)
  · exact .inr h.1

/-- A block store keeps the canonical form. -/
theorem Memory.wf_writeBlock {m : Memory} (hm : Memory.wf m) (a : Nat) (bs : List Byte) :
    Memory.wf (Memory.writeBlock m a bs) := by
  refine List.pairwise_append.mpr ⟨List.pairwise_append.mpr ⟨hm.filter _, Memory.wf_cellsFrom a bs, ?_⟩,
    hm.filter _, ?_⟩
  · intro x hx y hy
    have h1 := (List.mem_filter.mp hx).2
    have h2 := Memory.mem_cellsFrom hy
    simp only [decide_eq_true_eq] at h1; omega
  · intro x hx y hy
    have h1 := (List.mem_filter.mp hy).2
    simp only [decide_eq_true_eq] at h1
    rcases List.mem_append.mp hx with hx | hx
    · have h2 := (List.mem_filter.mp hx).2
      simp only [decide_eq_true_eq] at h2; omega
    · have h2 := Memory.mem_cellsFrom hx; omega

theorem Memory.read_append (m n : Memory) (b : Nat) :
    Memory.read? (m ++ n) b = (Memory.read? m b).or (Memory.read? n b) := by
  induction m with
  | nil => simp
  | cons c m ih =>
    obtain ⟨k, w⟩ := c
    rw [List.cons_append, Memory.read_cons, Memory.read_cons, ih]
    split <;> simp

theorem Memory.read_filter (m : Memory) (p : Nat → Bool) (b : Nat) :
    Memory.read? (m.filter fun c => p c.1) b = if p b then Memory.read? m b else none := by
  induction m with
  | nil => simp
  | cons c m ih =>
    obtain ⟨k, w⟩ := c
    rw [List.filter_cons]
    by_cases hk : p k = true
    · simp only [hk, if_true, Memory.read_cons, ih]
      by_cases hb : b = k
      · subst hb; simp [hk]
      · simp [hb]
    · simp only [hk, Memory.read_cons]
      by_cases hb : b = k
      · subst hb; simpa [hk] using ih
      · simpa [hb] using ih

theorem Memory.read_cellsFrom (a : Nat) (bs : List Byte) (b : Nat) :
    Memory.read? (Memory.cellsFrom a bs) b = if a ≤ b then bs[b - a]? else none := by
  induction bs generalizing a with
  | nil => simp [Memory.cellsFrom]
  | cons x bs ih =>
    rw [Memory.cellsFrom, Memory.read_cons]
    by_cases h : b = a
    · subst h; simp
    · rw [if_neg h, ih]
      by_cases hab : a ≤ b
      · have h1 : a + 1 ≤ b := by omega
        rw [if_pos h1, if_pos hab, show b - a = b - (a + 1) + 1 by omega, List.getElem?_cons_succ]
      · rw [if_neg hab, if_neg (by omega)]

/-- A cell inside a stored block reads the block's byte. -/
theorem Memory.read_writeBlock_in (m : Memory) (a : Nat) (bs : List Byte) (i : Nat) (h : i < bs.length) :
    Memory.read? (Memory.writeBlock m a bs) (a + i) = some bs[i] := by
  rw [Memory.writeBlock, Memory.read_append, Memory.read_append, Memory.read_filter m (fun k => decide (k < a)),
    Memory.read_cellsFrom]
  simp [h, show ¬ a + i < a by omega]

/-- A cell outside a stored block reads as before. -/
theorem Memory.read_writeBlock_out (m : Memory) (a : Nat) (bs : List Byte) (b : Nat)
    (h : b < a ∨ a + bs.length ≤ b) : Memory.read? (Memory.writeBlock m a bs) b = Memory.read? m b := by
  rw [Memory.writeBlock, Memory.read_append, Memory.read_append, Memory.read_filter m (fun k => decide (k < a)),
    Memory.read_filter m (fun k => decide (a + bs.length ≤ k)), Memory.read_cellsFrom]
  rcases h with h | h
  · simp [h, show ¬ a ≤ b by omega, show ¬ a + bs.length ≤ b by omega]
  · have h0 : bs[b - a]? = none := by simp; omega
    simp [h, show ¬ b < a by omega, show a ≤ b by omega, h0]

/-- Forgetting cells keeps the canonical form. -/
theorem Memory.wf_forget {m : Memory} (hm : Memory.wf m) (p : Nat → Bool) : Memory.wf (Memory.forget m p) := hm.filter _

theorem Memory.read_forget (m : Memory) (p : Nat → Bool) (b : Nat) :
    Memory.read? (Memory.forget m p) b = if p b then none else Memory.read? m b := by
  rw [Memory.forget, Memory.read_filter m (fun k => !p k)]
  cases p b <;> rfl

theorem Memory.mem_forget {m : Memory} {p : Nat → Bool} {c : Host.Cell} (h : c ∈ Memory.forget m p) : c ∈ m :=
  (List.mem_filter.mp h).1

/-! ## Cell numbers -/

theorem cellNumber_bankId (b : Bank) (p o : Byte) : cellBankId (cellNumber b p o) = b.id := by
  have := p.isLt; have := o.isLt
  simp only [cellBankId, cellNumber]; omega

theorem cellNumber_page (b : Bank) (p o : Byte) : cellNumber b p o / 256 % 256 = p.toNat := by
  have := p.isLt; have := o.isLt
  simp only [cellNumber]; omega

/-- Different cells have different numbers. -/
theorem cellNumber_injective {b c : Bank} {p q o r : Byte} (h : cellNumber b p o = cellNumber c q r) :
    b = c ∧ p = q ∧ o = r := by
  have h1 := p.isLt; have h2 := o.isLt; have h3 := q.isLt; have h4 := r.isLt
  simp only [cellNumber] at h
  refine ⟨Bank.id_injective (by omega), BitVec.eq_of_toNat_eq (by omega), BitVec.eq_of_toNat_eq (by omega)⟩

theorem cellIsRam_cellNumber (b : Bank) (p o : Byte) : cellIsRam (cellNumber b p o) = b.ramType := by
  simp only [cellIsRam, cellNumber_bankId, Bank.ofId_id]

theorem cellStorable_cellNumber (b : Bank) (p o : Byte) :
    cellStorable (cellNumber b p o) = decide (b ≠ .blank ∧ p.toNat < b.pages) := by
  simp only [cellStorable, cellNumber_bankId, Bank.ofId_id, cellNumber_page]

/-- The cells of a stored block are storable when the block fits the bank. -/
theorem cellStorable_block (b : Bank) (n a : Nat) (hb : b ≠ .blank) (hn : n ≤ b.pages * 256) (hp : b.pages ≤ 256)
    (h1 : cellNumber b 0 0 ≤ a) (h2 : a < cellNumber b 0 0 + n) : cellStorable a = true := by
  have h0 : (0 : Byte).toNat = 0 := rfl
  simp only [cellNumber, h0] at h1 h2
  have h3 : cellBankId a = b.id := by simp only [cellBankId]; omega
  simp only [cellStorable, h3, Bank.ofId_id, decide_eq_true_eq]
  simp only [cellBankId] at h3
  exact ⟨hb, by omega⟩

end Sys2Proof.Machine
end

