-- ==== Sys2Proof/Laws/State.lean ====
section
/-! SUPPORT. One lemma per field per single-purpose update of the state, so that no later proof unfolds a record update. -/

namespace Sys2Proof.Machine

/-! ### storeCell -/

@[simp] theorem State.storeCell_mem (s : State) (b : Bank) (p o v : Byte) : (s.storeCell b p o v).mem = if b = .blank then s.mem else s.mem.write (cellNumber b p o) v := rfl
@[simp] theorem State.storeCell_rt (s : State) (b : Bank) (p o v : Byte) : (s.storeCell b p o v).rt = s.rt := rfl
@[simp] theorem State.storeCell_wt (s : State) (b : Bank) (p o v : Byte) : (s.storeCell b p o v).wt = s.wt := rfl
@[simp] theorem State.storeCell_sw (s : State) (b : Bank) (p o v : Byte) : (s.storeCell b p o v).sw = s.sw := rfl
@[simp] theorem State.storeCell_occ (s : State) (b : Bank) (p o v : Byte) : (s.storeCell b p o v).occ = s.occ := rfl
@[simp] theorem State.storeCell_asl (s : State) (b : Bank) (p o v : Byte) : (s.storeCell b p o v).asl = s.asl := rfl
@[simp] theorem State.storeCell_lreg (s : State) (b : Bank) (p o v : Byte) : (s.storeCell b p o v).lreg = s.lreg := rfl
@[simp] theorem State.storeCell_pidx (s : State) (b : Bank) (p o v : Byte) : (s.storeCell b p o v).pidx = s.pidx := rfl
@[simp] theorem State.storeCell_ridx (s : State) (b : Bank) (p o v : Byte) : (s.storeCell b p o v).ridx = s.ridx := rfl
@[simp] theorem State.storeCell_run (s : State) (b : Bank) (p o v : Byte) : (s.storeCell b p o v).run = s.run := rfl
@[simp] theorem State.storeCell_divcnt (s : State) (b : Bank) (p o v : Byte) : (s.storeCell b p o v).divcnt = s.divcnt := rfl
@[simp] theorem State.storeCell_speedset (s : State) (b : Bank) (p o v : Byte) : (s.storeCell b p o v).speedset = s.speedset := rfl
@[simp] theorem State.storeCell_suspset (s : State) (b : Bank) (p o v : Byte) : (s.storeCell b p o v).suspset = s.suspset := rfl
@[simp] theorem State.storeCell_cardrun (s : State) (b : Bank) (p o v : Byte) : (s.storeCell b p o v).cardrun = s.cardrun := rfl
@[simp] theorem State.storeCell_booted (s : State) (b : Bank) (p o v : Byte) : (s.storeCell b p o v).booted = s.booted := rfl
@[simp] theorem State.storeCell_inDispatch (s : State) (b : Bank) (p o v : Byte) : (s.storeCell b p o v).inDispatch = s.inDispatch := rfl
@[simp] theorem State.storeCell_response (s : State) (b : Bank) (p o v : Byte) : (s.storeCell b p o v).response = s.response := rfl
@[simp] theorem State.storeCell_events (s : State) (b : Bank) (p o v : Byte) : (s.storeCell b p o v).events = s.events := rfl
@[simp] theorem State.storeCell_pending (s : State) (b : Bank) (p o v : Byte) : (s.storeCell b p o v).pending = s.pending := rfl
@[simp] theorem State.storeCell_params (s : State) (b : Bank) (p o v : Byte) : (s.storeCell b p o v).params = s.params := rfl
@[simp] theorem State.storeCell_env (s : State) (b : Bank) (p o v : Byte) : (s.storeCell b p o v).env = s.env := rfl
@[simp] theorem State.storeCell_ramEpoch (s : State) (b : Bank) (p o v : Byte) : (s.storeCell b p o v).ramEpoch = s.ramEpoch := rfl
@[simp] theorem State.storeCell_fresh (s : State) (b : Bank) (p o v : Byte) : (s.storeCell b p o v).fresh = s.fresh := rfl

/-! ### storeBlock -/

@[simp] theorem State.storeBlock_mem (s : State) (b : Bank) (p : Byte) (bs : List Byte) : (s.storeBlock b p bs).mem = s.mem.writeBlock (cellNumber b p 0) bs := rfl
@[simp] theorem State.storeBlock_rt (s : State) (b : Bank) (p : Byte) (bs : List Byte) : (s.storeBlock b p bs).rt = s.rt := rfl
@[simp] theorem State.storeBlock_wt (s : State) (b : Bank) (p : Byte) (bs : List Byte) : (s.storeBlock b p bs).wt = s.wt := rfl
@[simp] theorem State.storeBlock_sw (s : State) (b : Bank) (p : Byte) (bs : List Byte) : (s.storeBlock b p bs).sw = s.sw := rfl
@[simp] theorem State.storeBlock_occ (s : State) (b : Bank) (p : Byte) (bs : List Byte) : (s.storeBlock b p bs).occ = s.occ := rfl
@[simp] theorem State.storeBlock_asl (s : State) (b : Bank) (p : Byte) (bs : List Byte) : (s.storeBlock b p bs).asl = s.asl := rfl
@[simp] theorem State.storeBlock_lreg (s : State) (b : Bank) (p : Byte) (bs : List Byte) : (s.storeBlock b p bs).lreg = s.lreg := rfl
@[simp] theorem State.storeBlock_pidx (s : State) (b : Bank) (p : Byte) (bs : List Byte) : (s.storeBlock b p bs).pidx = s.pidx := rfl
@[simp] theorem State.storeBlock_ridx (s : State) (b : Bank) (p : Byte) (bs : List Byte) : (s.storeBlock b p bs).ridx = s.ridx := rfl
@[simp] theorem State.storeBlock_run (s : State) (b : Bank) (p : Byte) (bs : List Byte) : (s.storeBlock b p bs).run = s.run := rfl
@[simp] theorem State.storeBlock_divcnt (s : State) (b : Bank) (p : Byte) (bs : List Byte) : (s.storeBlock b p bs).divcnt = s.divcnt := rfl
@[simp] theorem State.storeBlock_speedset (s : State) (b : Bank) (p : Byte) (bs : List Byte) : (s.storeBlock b p bs).speedset = s.speedset := rfl
@[simp] theorem State.storeBlock_suspset (s : State) (b : Bank) (p : Byte) (bs : List Byte) : (s.storeBlock b p bs).suspset = s.suspset := rfl
@[simp] theorem State.storeBlock_cardrun (s : State) (b : Bank) (p : Byte) (bs : List Byte) : (s.storeBlock b p bs).cardrun = s.cardrun := rfl
@[simp] theorem State.storeBlock_booted (s : State) (b : Bank) (p : Byte) (bs : List Byte) : (s.storeBlock b p bs).booted = s.booted := rfl
@[simp] theorem State.storeBlock_inDispatch (s : State) (b : Bank) (p : Byte) (bs : List Byte) : (s.storeBlock b p bs).inDispatch = s.inDispatch := rfl
@[simp] theorem State.storeBlock_response (s : State) (b : Bank) (p : Byte) (bs : List Byte) : (s.storeBlock b p bs).response = s.response := rfl
@[simp] theorem State.storeBlock_events (s : State) (b : Bank) (p : Byte) (bs : List Byte) : (s.storeBlock b p bs).events = s.events := rfl
@[simp] theorem State.storeBlock_pending (s : State) (b : Bank) (p : Byte) (bs : List Byte) : (s.storeBlock b p bs).pending = s.pending := rfl
@[simp] theorem State.storeBlock_params (s : State) (b : Bank) (p : Byte) (bs : List Byte) : (s.storeBlock b p bs).params = s.params := rfl
@[simp] theorem State.storeBlock_env (s : State) (b : Bank) (p : Byte) (bs : List Byte) : (s.storeBlock b p bs).env = s.env := rfl
@[simp] theorem State.storeBlock_ramEpoch (s : State) (b : Bank) (p : Byte) (bs : List Byte) : (s.storeBlock b p bs).ramEpoch = s.ramEpoch := rfl
@[simp] theorem State.storeBlock_fresh (s : State) (b : Bank) (p : Byte) (bs : List Byte) : (s.storeBlock b p bs).fresh = s.fresh := rfl

/-! ### reconf -/

@[simp] theorem State.reconf_mem (s : State) : s.reconf.mem = s.mem := rfl
@[simp] theorem State.reconf_rt (s : State) : s.reconf.rt = readTableOf s.mapInputs := rfl
@[simp] theorem State.reconf_wt (s : State) : s.reconf.wt = writeTableOf s.mapInputs := rfl
@[simp] theorem State.reconf_sw (s : State) : s.reconf.sw = s.sw := rfl
@[simp] theorem State.reconf_occ (s : State) : s.reconf.occ = s.occ := rfl
@[simp] theorem State.reconf_asl (s : State) : s.reconf.asl = s.asl := rfl
@[simp] theorem State.reconf_lreg (s : State) : s.reconf.lreg = s.lreg := rfl
@[simp] theorem State.reconf_pidx (s : State) : s.reconf.pidx = s.pidx := rfl
@[simp] theorem State.reconf_ridx (s : State) : s.reconf.ridx = s.ridx := rfl
@[simp] theorem State.reconf_run (s : State) : s.reconf.run = s.run := rfl
@[simp] theorem State.reconf_divcnt (s : State) : s.reconf.divcnt = s.divcnt := rfl
@[simp] theorem State.reconf_speedset (s : State) : s.reconf.speedset = s.speedset := rfl
@[simp] theorem State.reconf_suspset (s : State) : s.reconf.suspset = s.suspset := rfl
@[simp] theorem State.reconf_cardrun (s : State) : s.reconf.cardrun = s.cardrun := rfl
@[simp] theorem State.reconf_booted (s : State) : s.reconf.booted = s.booted := rfl
@[simp] theorem State.reconf_inDispatch (s : State) : s.reconf.inDispatch = s.inDispatch := rfl
@[simp] theorem State.reconf_response (s : State) : s.reconf.response = s.response := rfl
@[simp] theorem State.reconf_events (s : State) : s.reconf.events = s.events := rfl
@[simp] theorem State.reconf_pending (s : State) : s.reconf.pending = s.pending := rfl
@[simp] theorem State.reconf_params (s : State) : s.reconf.params = s.params := rfl
@[simp] theorem State.reconf_env (s : State) : s.reconf.env = s.env := rfl
@[simp] theorem State.reconf_ramEpoch (s : State) : s.reconf.ramEpoch = s.ramEpoch := rfl
@[simp] theorem State.reconf_fresh (s : State) : s.reconf.fresh = s.fresh := rfl

/-! ### reindex -/

@[simp] theorem State.reindex_mem (s : State) : s.reindex.mem = s.mem := rfl
@[simp] theorem State.reindex_rt (s : State) : s.reindex.rt = s.rt := rfl
@[simp] theorem State.reindex_wt (s : State) : s.reindex.wt = s.wt := rfl
@[simp] theorem State.reindex_sw (s : State) : s.reindex.sw = s.sw := rfl
@[simp] theorem State.reindex_occ (s : State) : s.reindex.occ = s.occ := rfl
@[simp] theorem State.reindex_asl (s : State) : s.reindex.asl = s.asl := rfl
@[simp] theorem State.reindex_lreg (s : State) : s.reindex.lreg = s.lreg := rfl
@[simp] theorem State.reindex_pidx (s : State) : s.reindex.pidx = pageIndexOf s.lreg := rfl
@[simp] theorem State.reindex_ridx (s : State) : s.reindex.ridx = registerIndexOf s.lreg := rfl
@[simp] theorem State.reindex_run (s : State) : s.reindex.run = s.run := rfl
@[simp] theorem State.reindex_divcnt (s : State) : s.reindex.divcnt = s.divcnt := rfl
@[simp] theorem State.reindex_speedset (s : State) : s.reindex.speedset = s.speedset := rfl
@[simp] theorem State.reindex_suspset (s : State) : s.reindex.suspset = s.suspset := rfl
@[simp] theorem State.reindex_cardrun (s : State) : s.reindex.cardrun = s.cardrun := rfl
@[simp] theorem State.reindex_booted (s : State) : s.reindex.booted = s.booted := rfl
@[simp] theorem State.reindex_inDispatch (s : State) : s.reindex.inDispatch = s.inDispatch := rfl
@[simp] theorem State.reindex_response (s : State) : s.reindex.response = s.response := rfl
@[simp] theorem State.reindex_events (s : State) : s.reindex.events = s.events := rfl
@[simp] theorem State.reindex_pending (s : State) : s.reindex.pending = s.pending := rfl
@[simp] theorem State.reindex_params (s : State) : s.reindex.params = s.params := rfl
@[simp] theorem State.reindex_env (s : State) : s.reindex.env = s.env := rfl
@[simp] theorem State.reindex_ramEpoch (s : State) : s.reindex.ramEpoch = s.ramEpoch := rfl
@[simp] theorem State.reindex_fresh (s : State) : s.reindex.fresh = s.fresh := rfl

/-! ### setSwitches -/

@[simp] theorem State.setSwitches_mem (s : State) (v : Switches) : (s.setSwitches v).mem = s.mem := rfl
@[simp] theorem State.setSwitches_rt (s : State) (v : Switches) : (s.setSwitches v).rt = s.rt := rfl
@[simp] theorem State.setSwitches_wt (s : State) (v : Switches) : (s.setSwitches v).wt = s.wt := rfl
@[simp] theorem State.setSwitches_sw (s : State) (v : Switches) : (s.setSwitches v).sw = v := rfl
@[simp] theorem State.setSwitches_occ (s : State) (v : Switches) : (s.setSwitches v).occ = s.occ := rfl
@[simp] theorem State.setSwitches_asl (s : State) (v : Switches) : (s.setSwitches v).asl = s.asl := rfl
@[simp] theorem State.setSwitches_lreg (s : State) (v : Switches) : (s.setSwitches v).lreg = s.lreg := rfl
@[simp] theorem State.setSwitches_pidx (s : State) (v : Switches) : (s.setSwitches v).pidx = s.pidx := rfl
@[simp] theorem State.setSwitches_ridx (s : State) (v : Switches) : (s.setSwitches v).ridx = s.ridx := rfl
@[simp] theorem State.setSwitches_run (s : State) (v : Switches) : (s.setSwitches v).run = s.run := rfl
@[simp] theorem State.setSwitches_divcnt (s : State) (v : Switches) : (s.setSwitches v).divcnt = s.divcnt := rfl
@[simp] theorem State.setSwitches_speedset (s : State) (v : Switches) : (s.setSwitches v).speedset = s.speedset := rfl
@[simp] theorem State.setSwitches_suspset (s : State) (v : Switches) : (s.setSwitches v).suspset = s.suspset := rfl
@[simp] theorem State.setSwitches_cardrun (s : State) (v : Switches) : (s.setSwitches v).cardrun = s.cardrun := rfl
@[simp] theorem State.setSwitches_booted (s : State) (v : Switches) : (s.setSwitches v).booted = s.booted := rfl
@[simp] theorem State.setSwitches_inDispatch (s : State) (v : Switches) : (s.setSwitches v).inDispatch = s.inDispatch := rfl
@[simp] theorem State.setSwitches_response (s : State) (v : Switches) : (s.setSwitches v).response = s.response := rfl
@[simp] theorem State.setSwitches_events (s : State) (v : Switches) : (s.setSwitches v).events = s.events := rfl
@[simp] theorem State.setSwitches_pending (s : State) (v : Switches) : (s.setSwitches v).pending = s.pending := rfl
@[simp] theorem State.setSwitches_params (s : State) (v : Switches) : (s.setSwitches v).params = s.params := rfl
@[simp] theorem State.setSwitches_env (s : State) (v : Switches) : (s.setSwitches v).env = s.env := rfl
@[simp] theorem State.setSwitches_ramEpoch (s : State) (v : Switches) : (s.setSwitches v).ramEpoch = s.ramEpoch := rfl
@[simp] theorem State.setSwitches_fresh (s : State) (v : Switches) : (s.setSwitches v).fresh = s.fresh := rfl

/-! ### setAsl -/

@[simp] theorem State.setAsl_mem (s : State) (n : Option Slot) : (s.setAsl n).mem = s.mem := rfl
@[simp] theorem State.setAsl_rt (s : State) (n : Option Slot) : (s.setAsl n).rt = s.rt := rfl
@[simp] theorem State.setAsl_wt (s : State) (n : Option Slot) : (s.setAsl n).wt = s.wt := rfl
@[simp] theorem State.setAsl_sw (s : State) (n : Option Slot) : (s.setAsl n).sw = s.sw := rfl
@[simp] theorem State.setAsl_occ (s : State) (n : Option Slot) : (s.setAsl n).occ = s.occ := rfl
@[simp] theorem State.setAsl_asl (s : State) (n : Option Slot) : (s.setAsl n).asl = n := rfl
@[simp] theorem State.setAsl_lreg (s : State) (n : Option Slot) : (s.setAsl n).lreg = s.lreg := rfl
@[simp] theorem State.setAsl_pidx (s : State) (n : Option Slot) : (s.setAsl n).pidx = s.pidx := rfl
@[simp] theorem State.setAsl_ridx (s : State) (n : Option Slot) : (s.setAsl n).ridx = s.ridx := rfl
@[simp] theorem State.setAsl_run (s : State) (n : Option Slot) : (s.setAsl n).run = s.run := rfl
@[simp] theorem State.setAsl_divcnt (s : State) (n : Option Slot) : (s.setAsl n).divcnt = s.divcnt := rfl
@[simp] theorem State.setAsl_speedset (s : State) (n : Option Slot) : (s.setAsl n).speedset = s.speedset := rfl
@[simp] theorem State.setAsl_suspset (s : State) (n : Option Slot) : (s.setAsl n).suspset = s.suspset := rfl
@[simp] theorem State.setAsl_cardrun (s : State) (n : Option Slot) : (s.setAsl n).cardrun = s.cardrun := rfl
@[simp] theorem State.setAsl_booted (s : State) (n : Option Slot) : (s.setAsl n).booted = s.booted := rfl
@[simp] theorem State.setAsl_inDispatch (s : State) (n : Option Slot) : (s.setAsl n).inDispatch = s.inDispatch := rfl
@[simp] theorem State.setAsl_response (s : State) (n : Option Slot) : (s.setAsl n).response = s.response := rfl
@[simp] theorem State.setAsl_events (s : State) (n : Option Slot) : (s.setAsl n).events = s.events := rfl
@[simp] theorem State.setAsl_pending (s : State) (n : Option Slot) : (s.setAsl n).pending = s.pending := rfl
@[simp] theorem State.setAsl_params (s : State) (n : Option Slot) : (s.setAsl n).params = s.params := rfl
@[simp] theorem State.setAsl_env (s : State) (n : Option Slot) : (s.setAsl n).env = s.env := rfl
@[simp] theorem State.setAsl_ramEpoch (s : State) (n : Option Slot) : (s.setAsl n).ramEpoch = s.ramEpoch := rfl
@[simp] theorem State.setAsl_fresh (s : State) (n : Option Slot) : (s.setAsl n).fresh = s.fresh := rfl

/-! ### setListeners -/

@[simp] theorem State.setListeners_mem (s : State) (ls : List Listener) : (s.setListeners ls).mem = s.mem := rfl
@[simp] theorem State.setListeners_rt (s : State) (ls : List Listener) : (s.setListeners ls).rt = s.rt := rfl
@[simp] theorem State.setListeners_wt (s : State) (ls : List Listener) : (s.setListeners ls).wt = s.wt := rfl
@[simp] theorem State.setListeners_sw (s : State) (ls : List Listener) : (s.setListeners ls).sw = s.sw := rfl
@[simp] theorem State.setListeners_occ (s : State) (ls : List Listener) : (s.setListeners ls).occ = s.occ := rfl
@[simp] theorem State.setListeners_asl (s : State) (ls : List Listener) : (s.setListeners ls).asl = s.asl := rfl
@[simp] theorem State.setListeners_lreg (s : State) (ls : List Listener) : (s.setListeners ls).lreg = ls := rfl
@[simp] theorem State.setListeners_pidx (s : State) (ls : List Listener) : (s.setListeners ls).pidx = s.pidx := rfl
@[simp] theorem State.setListeners_ridx (s : State) (ls : List Listener) : (s.setListeners ls).ridx = s.ridx := rfl
@[simp] theorem State.setListeners_run (s : State) (ls : List Listener) : (s.setListeners ls).run = s.run := rfl
@[simp] theorem State.setListeners_divcnt (s : State) (ls : List Listener) : (s.setListeners ls).divcnt = s.divcnt := rfl
@[simp] theorem State.setListeners_speedset (s : State) (ls : List Listener) : (s.setListeners ls).speedset = s.speedset := rfl
@[simp] theorem State.setListeners_suspset (s : State) (ls : List Listener) : (s.setListeners ls).suspset = s.suspset := rfl
@[simp] theorem State.setListeners_cardrun (s : State) (ls : List Listener) : (s.setListeners ls).cardrun = s.cardrun := rfl
@[simp] theorem State.setListeners_booted (s : State) (ls : List Listener) : (s.setListeners ls).booted = s.booted := rfl
@[simp] theorem State.setListeners_inDispatch (s : State) (ls : List Listener) : (s.setListeners ls).inDispatch = s.inDispatch := rfl
@[simp] theorem State.setListeners_response (s : State) (ls : List Listener) : (s.setListeners ls).response = s.response := rfl
@[simp] theorem State.setListeners_events (s : State) (ls : List Listener) : (s.setListeners ls).events = s.events := rfl
@[simp] theorem State.setListeners_pending (s : State) (ls : List Listener) : (s.setListeners ls).pending = s.pending := rfl
@[simp] theorem State.setListeners_params (s : State) (ls : List Listener) : (s.setListeners ls).params = s.params := rfl
@[simp] theorem State.setListeners_env (s : State) (ls : List Listener) : (s.setListeners ls).env = s.env := rfl
@[simp] theorem State.setListeners_ramEpoch (s : State) (ls : List Listener) : (s.setListeners ls).ramEpoch = s.ramEpoch := rfl
@[simp] theorem State.setListeners_fresh (s : State) (ls : List Listener) : (s.setListeners ls).fresh = s.fresh := rfl

/-! ### setCard -/

@[simp] theorem State.setCard_mem (s : State) (n : Slot) (x y : Bool) : (s.setCard n x y).mem = s.mem := rfl
@[simp] theorem State.setCard_rt (s : State) (n : Slot) (x y : Bool) : (s.setCard n x y).rt = s.rt := rfl
@[simp] theorem State.setCard_wt (s : State) (n : Slot) (x y : Bool) : (s.setCard n x y).wt = s.wt := rfl
@[simp] theorem State.setCard_sw (s : State) (n : Slot) (x y : Bool) : (s.setCard n x y).sw = s.sw := rfl
@[simp] theorem State.setCard_occ (s : State) (n : Slot) (x y : Bool) : (s.setCard n x y).occ = s.occ.set n x := rfl
@[simp] theorem State.setCard_asl (s : State) (n : Slot) (x y : Bool) : (s.setCard n x y).asl = s.asl := rfl
@[simp] theorem State.setCard_lreg (s : State) (n : Slot) (x y : Bool) : (s.setCard n x y).lreg = s.lreg := rfl
@[simp] theorem State.setCard_pidx (s : State) (n : Slot) (x y : Bool) : (s.setCard n x y).pidx = s.pidx := rfl
@[simp] theorem State.setCard_ridx (s : State) (n : Slot) (x y : Bool) : (s.setCard n x y).ridx = s.ridx := rfl
@[simp] theorem State.setCard_run (s : State) (n : Slot) (x y : Bool) : (s.setCard n x y).run = s.run := rfl
@[simp] theorem State.setCard_divcnt (s : State) (n : Slot) (x y : Bool) : (s.setCard n x y).divcnt = s.divcnt := rfl
@[simp] theorem State.setCard_speedset (s : State) (n : Slot) (x y : Bool) : (s.setCard n x y).speedset = s.speedset := rfl
@[simp] theorem State.setCard_suspset (s : State) (n : Slot) (x y : Bool) : (s.setCard n x y).suspset = s.suspset := rfl
@[simp] theorem State.setCard_cardrun (s : State) (n : Slot) (x y : Bool) : (s.setCard n x y).cardrun = s.cardrun.set n y := rfl
@[simp] theorem State.setCard_booted (s : State) (n : Slot) (x y : Bool) : (s.setCard n x y).booted = s.booted := rfl
@[simp] theorem State.setCard_inDispatch (s : State) (n : Slot) (x y : Bool) : (s.setCard n x y).inDispatch = s.inDispatch := rfl
@[simp] theorem State.setCard_response (s : State) (n : Slot) (x y : Bool) : (s.setCard n x y).response = s.response := rfl
@[simp] theorem State.setCard_events (s : State) (n : Slot) (x y : Bool) : (s.setCard n x y).events = s.events := rfl
@[simp] theorem State.setCard_pending (s : State) (n : Slot) (x y : Bool) : (s.setCard n x y).pending = s.pending := rfl
@[simp] theorem State.setCard_params (s : State) (n : Slot) (x y : Bool) : (s.setCard n x y).params = s.params := rfl
@[simp] theorem State.setCard_env (s : State) (n : Slot) (x y : Bool) : (s.setCard n x y).env = s.env := rfl
@[simp] theorem State.setCard_ramEpoch (s : State) (n : Slot) (x y : Bool) : (s.setCard n x y).ramEpoch = s.ramEpoch := rfl
@[simp] theorem State.setCard_fresh (s : State) (n : Slot) (x y : Bool) : (s.setCard n x y).fresh = s.fresh := rfl

/-! ### setSuspended -/

@[simp] theorem State.setSuspended_mem (s : State) (n : Slot) (x : Bool) : (s.setSuspended n x).mem = s.mem := rfl
@[simp] theorem State.setSuspended_rt (s : State) (n : Slot) (x : Bool) : (s.setSuspended n x).rt = s.rt := rfl
@[simp] theorem State.setSuspended_wt (s : State) (n : Slot) (x : Bool) : (s.setSuspended n x).wt = s.wt := rfl
@[simp] theorem State.setSuspended_sw (s : State) (n : Slot) (x : Bool) : (s.setSuspended n x).sw = s.sw := rfl
@[simp] theorem State.setSuspended_occ (s : State) (n : Slot) (x : Bool) : (s.setSuspended n x).occ = s.occ := rfl
@[simp] theorem State.setSuspended_asl (s : State) (n : Slot) (x : Bool) : (s.setSuspended n x).asl = s.asl := rfl
@[simp] theorem State.setSuspended_lreg (s : State) (n : Slot) (x : Bool) : (s.setSuspended n x).lreg = s.lreg := rfl
@[simp] theorem State.setSuspended_pidx (s : State) (n : Slot) (x : Bool) : (s.setSuspended n x).pidx = s.pidx := rfl
@[simp] theorem State.setSuspended_ridx (s : State) (n : Slot) (x : Bool) : (s.setSuspended n x).ridx = s.ridx := rfl
@[simp] theorem State.setSuspended_run (s : State) (n : Slot) (x : Bool) : (s.setSuspended n x).run = s.run := rfl
@[simp] theorem State.setSuspended_divcnt (s : State) (n : Slot) (x : Bool) : (s.setSuspended n x).divcnt = s.divcnt := rfl
@[simp] theorem State.setSuspended_speedset (s : State) (n : Slot) (x : Bool) : (s.setSuspended n x).speedset = s.speedset := rfl
@[simp] theorem State.setSuspended_suspset (s : State) (n : Slot) (x : Bool) : (s.setSuspended n x).suspset = s.suspset.set n x := rfl
@[simp] theorem State.setSuspended_cardrun (s : State) (n : Slot) (x : Bool) : (s.setSuspended n x).cardrun = s.cardrun := rfl
@[simp] theorem State.setSuspended_booted (s : State) (n : Slot) (x : Bool) : (s.setSuspended n x).booted = s.booted := rfl
@[simp] theorem State.setSuspended_inDispatch (s : State) (n : Slot) (x : Bool) : (s.setSuspended n x).inDispatch = s.inDispatch := rfl
@[simp] theorem State.setSuspended_response (s : State) (n : Slot) (x : Bool) : (s.setSuspended n x).response = s.response := rfl
@[simp] theorem State.setSuspended_events (s : State) (n : Slot) (x : Bool) : (s.setSuspended n x).events = s.events := rfl
@[simp] theorem State.setSuspended_pending (s : State) (n : Slot) (x : Bool) : (s.setSuspended n x).pending = s.pending := rfl
@[simp] theorem State.setSuspended_params (s : State) (n : Slot) (x : Bool) : (s.setSuspended n x).params = s.params := rfl
@[simp] theorem State.setSuspended_env (s : State) (n : Slot) (x : Bool) : (s.setSuspended n x).env = s.env := rfl
@[simp] theorem State.setSuspended_ramEpoch (s : State) (n : Slot) (x : Bool) : (s.setSuspended n x).ramEpoch = s.ramEpoch := rfl
@[simp] theorem State.setSuspended_fresh (s : State) (n : Slot) (x : Bool) : (s.setSuspended n x).fresh = s.fresh := rfl

/-! ### setRun -/

@[simp] theorem State.setRun_mem (s : State) (r : RunState) : (s.setRun r).mem = s.mem := rfl
@[simp] theorem State.setRun_rt (s : State) (r : RunState) : (s.setRun r).rt = s.rt := rfl
@[simp] theorem State.setRun_wt (s : State) (r : RunState) : (s.setRun r).wt = s.wt := rfl
@[simp] theorem State.setRun_sw (s : State) (r : RunState) : (s.setRun r).sw = s.sw := rfl
@[simp] theorem State.setRun_occ (s : State) (r : RunState) : (s.setRun r).occ = s.occ := rfl
@[simp] theorem State.setRun_asl (s : State) (r : RunState) : (s.setRun r).asl = s.asl := rfl
@[simp] theorem State.setRun_lreg (s : State) (r : RunState) : (s.setRun r).lreg = s.lreg := rfl
@[simp] theorem State.setRun_pidx (s : State) (r : RunState) : (s.setRun r).pidx = s.pidx := rfl
@[simp] theorem State.setRun_ridx (s : State) (r : RunState) : (s.setRun r).ridx = s.ridx := rfl
@[simp] theorem State.setRun_run (s : State) (r : RunState) : (s.setRun r).run = r := rfl
@[simp] theorem State.setRun_divcnt (s : State) (r : RunState) : (s.setRun r).divcnt = s.divcnt := rfl
@[simp] theorem State.setRun_speedset (s : State) (r : RunState) : (s.setRun r).speedset = s.speedset := rfl
@[simp] theorem State.setRun_suspset (s : State) (r : RunState) : (s.setRun r).suspset = s.suspset := rfl
@[simp] theorem State.setRun_cardrun (s : State) (r : RunState) : (s.setRun r).cardrun = s.cardrun := rfl
@[simp] theorem State.setRun_booted (s : State) (r : RunState) : (s.setRun r).booted = s.booted := rfl
@[simp] theorem State.setRun_inDispatch (s : State) (r : RunState) : (s.setRun r).inDispatch = s.inDispatch := rfl
@[simp] theorem State.setRun_response (s : State) (r : RunState) : (s.setRun r).response = s.response := rfl
@[simp] theorem State.setRun_events (s : State) (r : RunState) : (s.setRun r).events = s.events := rfl
@[simp] theorem State.setRun_pending (s : State) (r : RunState) : (s.setRun r).pending = s.pending := rfl
@[simp] theorem State.setRun_params (s : State) (r : RunState) : (s.setRun r).params = s.params := rfl
@[simp] theorem State.setRun_env (s : State) (r : RunState) : (s.setRun r).env = s.env := rfl
@[simp] theorem State.setRun_ramEpoch (s : State) (r : RunState) : (s.setRun r).ramEpoch = s.ramEpoch := rfl
@[simp] theorem State.setRun_fresh (s : State) (r : RunState) : (s.setRun r).fresh = s.fresh := rfl

/-! ### setDivcnt -/

@[simp] theorem State.setDivcnt_mem (s : State) (d : Nat) : (s.setDivcnt d).mem = s.mem := rfl
@[simp] theorem State.setDivcnt_rt (s : State) (d : Nat) : (s.setDivcnt d).rt = s.rt := rfl
@[simp] theorem State.setDivcnt_wt (s : State) (d : Nat) : (s.setDivcnt d).wt = s.wt := rfl
@[simp] theorem State.setDivcnt_sw (s : State) (d : Nat) : (s.setDivcnt d).sw = s.sw := rfl
@[simp] theorem State.setDivcnt_occ (s : State) (d : Nat) : (s.setDivcnt d).occ = s.occ := rfl
@[simp] theorem State.setDivcnt_asl (s : State) (d : Nat) : (s.setDivcnt d).asl = s.asl := rfl
@[simp] theorem State.setDivcnt_lreg (s : State) (d : Nat) : (s.setDivcnt d).lreg = s.lreg := rfl
@[simp] theorem State.setDivcnt_pidx (s : State) (d : Nat) : (s.setDivcnt d).pidx = s.pidx := rfl
@[simp] theorem State.setDivcnt_ridx (s : State) (d : Nat) : (s.setDivcnt d).ridx = s.ridx := rfl
@[simp] theorem State.setDivcnt_run (s : State) (d : Nat) : (s.setDivcnt d).run = s.run := rfl
@[simp] theorem State.setDivcnt_divcnt (s : State) (d : Nat) : (s.setDivcnt d).divcnt = d := rfl
@[simp] theorem State.setDivcnt_speedset (s : State) (d : Nat) : (s.setDivcnt d).speedset = s.speedset := rfl
@[simp] theorem State.setDivcnt_suspset (s : State) (d : Nat) : (s.setDivcnt d).suspset = s.suspset := rfl
@[simp] theorem State.setDivcnt_cardrun (s : State) (d : Nat) : (s.setDivcnt d).cardrun = s.cardrun := rfl
@[simp] theorem State.setDivcnt_booted (s : State) (d : Nat) : (s.setDivcnt d).booted = s.booted := rfl
@[simp] theorem State.setDivcnt_inDispatch (s : State) (d : Nat) : (s.setDivcnt d).inDispatch = s.inDispatch := rfl
@[simp] theorem State.setDivcnt_response (s : State) (d : Nat) : (s.setDivcnt d).response = s.response := rfl
@[simp] theorem State.setDivcnt_events (s : State) (d : Nat) : (s.setDivcnt d).events = s.events := rfl
@[simp] theorem State.setDivcnt_pending (s : State) (d : Nat) : (s.setDivcnt d).pending = s.pending := rfl
@[simp] theorem State.setDivcnt_params (s : State) (d : Nat) : (s.setDivcnt d).params = s.params := rfl
@[simp] theorem State.setDivcnt_env (s : State) (d : Nat) : (s.setDivcnt d).env = s.env := rfl
@[simp] theorem State.setDivcnt_ramEpoch (s : State) (d : Nat) : (s.setDivcnt d).ramEpoch = s.ramEpoch := rfl
@[simp] theorem State.setDivcnt_fresh (s : State) (d : Nat) : (s.setDivcnt d).fresh = s.fresh := rfl

/-! ### setSpeed -/

@[simp] theorem State.setSpeed_mem (s : State) (xs : List Word16) : (s.setSpeed xs).mem = s.mem := rfl
@[simp] theorem State.setSpeed_rt (s : State) (xs : List Word16) : (s.setSpeed xs).rt = s.rt := rfl
@[simp] theorem State.setSpeed_wt (s : State) (xs : List Word16) : (s.setSpeed xs).wt = s.wt := rfl
@[simp] theorem State.setSpeed_sw (s : State) (xs : List Word16) : (s.setSpeed xs).sw = s.sw := rfl
@[simp] theorem State.setSpeed_occ (s : State) (xs : List Word16) : (s.setSpeed xs).occ = s.occ := rfl
@[simp] theorem State.setSpeed_asl (s : State) (xs : List Word16) : (s.setSpeed xs).asl = s.asl := rfl
@[simp] theorem State.setSpeed_lreg (s : State) (xs : List Word16) : (s.setSpeed xs).lreg = s.lreg := rfl
@[simp] theorem State.setSpeed_pidx (s : State) (xs : List Word16) : (s.setSpeed xs).pidx = s.pidx := rfl
@[simp] theorem State.setSpeed_ridx (s : State) (xs : List Word16) : (s.setSpeed xs).ridx = s.ridx := rfl
@[simp] theorem State.setSpeed_run (s : State) (xs : List Word16) : (s.setSpeed xs).run = s.run := rfl
@[simp] theorem State.setSpeed_divcnt (s : State) (xs : List Word16) : (s.setSpeed xs).divcnt = s.divcnt := rfl
@[simp] theorem State.setSpeed_speedset (s : State) (xs : List Word16) : (s.setSpeed xs).speedset = xs := rfl
@[simp] theorem State.setSpeed_suspset (s : State) (xs : List Word16) : (s.setSpeed xs).suspset = s.suspset := rfl
@[simp] theorem State.setSpeed_cardrun (s : State) (xs : List Word16) : (s.setSpeed xs).cardrun = s.cardrun := rfl
@[simp] theorem State.setSpeed_booted (s : State) (xs : List Word16) : (s.setSpeed xs).booted = s.booted := rfl
@[simp] theorem State.setSpeed_inDispatch (s : State) (xs : List Word16) : (s.setSpeed xs).inDispatch = s.inDispatch := rfl
@[simp] theorem State.setSpeed_response (s : State) (xs : List Word16) : (s.setSpeed xs).response = s.response := rfl
@[simp] theorem State.setSpeed_events (s : State) (xs : List Word16) : (s.setSpeed xs).events = s.events := rfl
@[simp] theorem State.setSpeed_pending (s : State) (xs : List Word16) : (s.setSpeed xs).pending = s.pending := rfl
@[simp] theorem State.setSpeed_params (s : State) (xs : List Word16) : (s.setSpeed xs).params = s.params := rfl
@[simp] theorem State.setSpeed_env (s : State) (xs : List Word16) : (s.setSpeed xs).env = s.env := rfl
@[simp] theorem State.setSpeed_ramEpoch (s : State) (xs : List Word16) : (s.setSpeed xs).ramEpoch = s.ramEpoch := rfl
@[simp] theorem State.setSpeed_fresh (s : State) (xs : List Word16) : (s.setSpeed xs).fresh = s.fresh := rfl

/-! ### setDispatch -/

@[simp] theorem State.setDispatch_mem (s : State) (b : Bool) : (s.setDispatch b).mem = s.mem := rfl
@[simp] theorem State.setDispatch_rt (s : State) (b : Bool) : (s.setDispatch b).rt = s.rt := rfl
@[simp] theorem State.setDispatch_wt (s : State) (b : Bool) : (s.setDispatch b).wt = s.wt := rfl
@[simp] theorem State.setDispatch_sw (s : State) (b : Bool) : (s.setDispatch b).sw = s.sw := rfl
@[simp] theorem State.setDispatch_occ (s : State) (b : Bool) : (s.setDispatch b).occ = s.occ := rfl
@[simp] theorem State.setDispatch_asl (s : State) (b : Bool) : (s.setDispatch b).asl = s.asl := rfl
@[simp] theorem State.setDispatch_lreg (s : State) (b : Bool) : (s.setDispatch b).lreg = s.lreg := rfl
@[simp] theorem State.setDispatch_pidx (s : State) (b : Bool) : (s.setDispatch b).pidx = s.pidx := rfl
@[simp] theorem State.setDispatch_ridx (s : State) (b : Bool) : (s.setDispatch b).ridx = s.ridx := rfl
@[simp] theorem State.setDispatch_run (s : State) (b : Bool) : (s.setDispatch b).run = s.run := rfl
@[simp] theorem State.setDispatch_divcnt (s : State) (b : Bool) : (s.setDispatch b).divcnt = s.divcnt := rfl
@[simp] theorem State.setDispatch_speedset (s : State) (b : Bool) : (s.setDispatch b).speedset = s.speedset := rfl
@[simp] theorem State.setDispatch_suspset (s : State) (b : Bool) : (s.setDispatch b).suspset = s.suspset := rfl
@[simp] theorem State.setDispatch_cardrun (s : State) (b : Bool) : (s.setDispatch b).cardrun = s.cardrun := rfl
@[simp] theorem State.setDispatch_booted (s : State) (b : Bool) : (s.setDispatch b).booted = s.booted := rfl
@[simp] theorem State.setDispatch_inDispatch (s : State) (b : Bool) : (s.setDispatch b).inDispatch = b := rfl
@[simp] theorem State.setDispatch_response (s : State) (b : Bool) : (s.setDispatch b).response = s.response := rfl
@[simp] theorem State.setDispatch_events (s : State) (b : Bool) : (s.setDispatch b).events = s.events := rfl
@[simp] theorem State.setDispatch_pending (s : State) (b : Bool) : (s.setDispatch b).pending = s.pending := rfl
@[simp] theorem State.setDispatch_params (s : State) (b : Bool) : (s.setDispatch b).params = s.params := rfl
@[simp] theorem State.setDispatch_env (s : State) (b : Bool) : (s.setDispatch b).env = s.env := rfl
@[simp] theorem State.setDispatch_ramEpoch (s : State) (b : Bool) : (s.setDispatch b).ramEpoch = s.ramEpoch := rfl
@[simp] theorem State.setDispatch_fresh (s : State) (b : Bool) : (s.setDispatch b).fresh = s.fresh := rfl

/-! ### log -/

@[simp] theorem State.log_mem (s : State) (e : Event) : (s.log e).mem = s.mem := rfl
@[simp] theorem State.log_rt (s : State) (e : Event) : (s.log e).rt = s.rt := rfl
@[simp] theorem State.log_wt (s : State) (e : Event) : (s.log e).wt = s.wt := rfl
@[simp] theorem State.log_sw (s : State) (e : Event) : (s.log e).sw = s.sw := rfl
@[simp] theorem State.log_occ (s : State) (e : Event) : (s.log e).occ = s.occ := rfl
@[simp] theorem State.log_asl (s : State) (e : Event) : (s.log e).asl = s.asl := rfl
@[simp] theorem State.log_lreg (s : State) (e : Event) : (s.log e).lreg = s.lreg := rfl
@[simp] theorem State.log_pidx (s : State) (e : Event) : (s.log e).pidx = s.pidx := rfl
@[simp] theorem State.log_ridx (s : State) (e : Event) : (s.log e).ridx = s.ridx := rfl
@[simp] theorem State.log_run (s : State) (e : Event) : (s.log e).run = s.run := rfl
@[simp] theorem State.log_divcnt (s : State) (e : Event) : (s.log e).divcnt = s.divcnt := rfl
@[simp] theorem State.log_speedset (s : State) (e : Event) : (s.log e).speedset = s.speedset := rfl
@[simp] theorem State.log_suspset (s : State) (e : Event) : (s.log e).suspset = s.suspset := rfl
@[simp] theorem State.log_cardrun (s : State) (e : Event) : (s.log e).cardrun = s.cardrun := rfl
@[simp] theorem State.log_booted (s : State) (e : Event) : (s.log e).booted = s.booted := rfl
@[simp] theorem State.log_inDispatch (s : State) (e : Event) : (s.log e).inDispatch = s.inDispatch := rfl
@[simp] theorem State.log_response (s : State) (e : Event) : (s.log e).response = s.response := rfl
@[simp] theorem State.log_events (s : State) (e : Event) : (s.log e).events = s.events ++ [e] := rfl
@[simp] theorem State.log_pending (s : State) (e : Event) : (s.log e).pending = s.pending := rfl
@[simp] theorem State.log_params (s : State) (e : Event) : (s.log e).params = s.params := rfl
@[simp] theorem State.log_env (s : State) (e : Event) : (s.log e).env = s.env := rfl
@[simp] theorem State.log_ramEpoch (s : State) (e : Event) : (s.log e).ramEpoch = s.ramEpoch := rfl
@[simp] theorem State.log_fresh (s : State) (e : Event) : (s.log e).fresh = s.fresh := rfl

/-! ### clearEvents -/

@[simp] theorem State.clearEvents_mem (s : State) : s.clearEvents.mem = s.mem := rfl
@[simp] theorem State.clearEvents_rt (s : State) : s.clearEvents.rt = s.rt := rfl
@[simp] theorem State.clearEvents_wt (s : State) : s.clearEvents.wt = s.wt := rfl
@[simp] theorem State.clearEvents_sw (s : State) : s.clearEvents.sw = s.sw := rfl
@[simp] theorem State.clearEvents_occ (s : State) : s.clearEvents.occ = s.occ := rfl
@[simp] theorem State.clearEvents_asl (s : State) : s.clearEvents.asl = s.asl := rfl
@[simp] theorem State.clearEvents_lreg (s : State) : s.clearEvents.lreg = s.lreg := rfl
@[simp] theorem State.clearEvents_pidx (s : State) : s.clearEvents.pidx = s.pidx := rfl
@[simp] theorem State.clearEvents_ridx (s : State) : s.clearEvents.ridx = s.ridx := rfl
@[simp] theorem State.clearEvents_run (s : State) : s.clearEvents.run = s.run := rfl
@[simp] theorem State.clearEvents_divcnt (s : State) : s.clearEvents.divcnt = s.divcnt := rfl
@[simp] theorem State.clearEvents_speedset (s : State) : s.clearEvents.speedset = s.speedset := rfl
@[simp] theorem State.clearEvents_suspset (s : State) : s.clearEvents.suspset = s.suspset := rfl
@[simp] theorem State.clearEvents_cardrun (s : State) : s.clearEvents.cardrun = s.cardrun := rfl
@[simp] theorem State.clearEvents_booted (s : State) : s.clearEvents.booted = s.booted := rfl
@[simp] theorem State.clearEvents_inDispatch (s : State) : s.clearEvents.inDispatch = s.inDispatch := rfl
@[simp] theorem State.clearEvents_response (s : State) : s.clearEvents.response = s.response := rfl
@[simp] theorem State.clearEvents_events (s : State) : s.clearEvents.events = [] := rfl
@[simp] theorem State.clearEvents_pending (s : State) : s.clearEvents.pending = s.pending := rfl
@[simp] theorem State.clearEvents_params (s : State) : s.clearEvents.params = s.params := rfl
@[simp] theorem State.clearEvents_env (s : State) : s.clearEvents.env = s.env := rfl
@[simp] theorem State.clearEvents_ramEpoch (s : State) : s.clearEvents.ramEpoch = s.ramEpoch := rfl
@[simp] theorem State.clearEvents_fresh (s : State) : s.clearEvents.fresh = s.fresh := rfl

/-! ### respond -/

@[simp] theorem State.respond_mem (s : State) (r : Response) : (s.respond r).mem = s.mem := rfl
@[simp] theorem State.respond_rt (s : State) (r : Response) : (s.respond r).rt = s.rt := rfl
@[simp] theorem State.respond_wt (s : State) (r : Response) : (s.respond r).wt = s.wt := rfl
@[simp] theorem State.respond_sw (s : State) (r : Response) : (s.respond r).sw = s.sw := rfl
@[simp] theorem State.respond_occ (s : State) (r : Response) : (s.respond r).occ = s.occ := rfl
@[simp] theorem State.respond_asl (s : State) (r : Response) : (s.respond r).asl = s.asl := rfl
@[simp] theorem State.respond_lreg (s : State) (r : Response) : (s.respond r).lreg = s.lreg := rfl
@[simp] theorem State.respond_pidx (s : State) (r : Response) : (s.respond r).pidx = s.pidx := rfl
@[simp] theorem State.respond_ridx (s : State) (r : Response) : (s.respond r).ridx = s.ridx := rfl
@[simp] theorem State.respond_run (s : State) (r : Response) : (s.respond r).run = s.run := rfl
@[simp] theorem State.respond_divcnt (s : State) (r : Response) : (s.respond r).divcnt = s.divcnt := rfl
@[simp] theorem State.respond_speedset (s : State) (r : Response) : (s.respond r).speedset = s.speedset := rfl
@[simp] theorem State.respond_suspset (s : State) (r : Response) : (s.respond r).suspset = s.suspset := rfl
@[simp] theorem State.respond_cardrun (s : State) (r : Response) : (s.respond r).cardrun = s.cardrun := rfl
@[simp] theorem State.respond_booted (s : State) (r : Response) : (s.respond r).booted = s.booted := rfl
@[simp] theorem State.respond_inDispatch (s : State) (r : Response) : (s.respond r).inDispatch = s.inDispatch := rfl
@[simp] theorem State.respond_response (s : State) (r : Response) : (s.respond r).response = r := rfl
@[simp] theorem State.respond_events (s : State) (r : Response) : (s.respond r).events = s.events := rfl
@[simp] theorem State.respond_pending (s : State) (r : Response) : (s.respond r).pending = s.pending := rfl
@[simp] theorem State.respond_params (s : State) (r : Response) : (s.respond r).params = s.params := rfl
@[simp] theorem State.respond_env (s : State) (r : Response) : (s.respond r).env = s.env := rfl
@[simp] theorem State.respond_ramEpoch (s : State) (r : Response) : (s.respond r).ramEpoch = s.ramEpoch := rfl
@[simp] theorem State.respond_fresh (s : State) (r : Response) : (s.respond r).fresh = s.fresh := rfl

/-! ### nextFresh -/

@[simp] theorem State.nextFresh_mem (s : State) : s.nextFresh.mem = s.mem := rfl
@[simp] theorem State.nextFresh_rt (s : State) : s.nextFresh.rt = s.rt := rfl
@[simp] theorem State.nextFresh_wt (s : State) : s.nextFresh.wt = s.wt := rfl
@[simp] theorem State.nextFresh_sw (s : State) : s.nextFresh.sw = s.sw := rfl
@[simp] theorem State.nextFresh_occ (s : State) : s.nextFresh.occ = s.occ := rfl
@[simp] theorem State.nextFresh_asl (s : State) : s.nextFresh.asl = s.asl := rfl
@[simp] theorem State.nextFresh_lreg (s : State) : s.nextFresh.lreg = s.lreg := rfl
@[simp] theorem State.nextFresh_pidx (s : State) : s.nextFresh.pidx = s.pidx := rfl
@[simp] theorem State.nextFresh_ridx (s : State) : s.nextFresh.ridx = s.ridx := rfl
@[simp] theorem State.nextFresh_run (s : State) : s.nextFresh.run = s.run := rfl
@[simp] theorem State.nextFresh_divcnt (s : State) : s.nextFresh.divcnt = s.divcnt := rfl
@[simp] theorem State.nextFresh_speedset (s : State) : s.nextFresh.speedset = s.speedset := rfl
@[simp] theorem State.nextFresh_suspset (s : State) : s.nextFresh.suspset = s.suspset := rfl
@[simp] theorem State.nextFresh_cardrun (s : State) : s.nextFresh.cardrun = s.cardrun := rfl
@[simp] theorem State.nextFresh_booted (s : State) : s.nextFresh.booted = s.booted := rfl
@[simp] theorem State.nextFresh_inDispatch (s : State) : s.nextFresh.inDispatch = s.inDispatch := rfl
@[simp] theorem State.nextFresh_response (s : State) : s.nextFresh.response = s.response := rfl
@[simp] theorem State.nextFresh_events (s : State) : s.nextFresh.events = s.events := rfl
@[simp] theorem State.nextFresh_pending (s : State) : s.nextFresh.pending = s.pending := rfl
@[simp] theorem State.nextFresh_params (s : State) : s.nextFresh.params = s.params := rfl
@[simp] theorem State.nextFresh_env (s : State) : s.nextFresh.env = s.env := rfl
@[simp] theorem State.nextFresh_ramEpoch (s : State) : s.nextFresh.ramEpoch = s.ramEpoch := rfl
@[simp] theorem State.nextFresh_fresh (s : State) : s.nextFresh.fresh = s.fresh + 1 := rfl

/-! ### take -/

@[simp] theorem State.take_mem (s : State) (r : Request) (rest : List Request) : (s.take r rest).mem = s.mem := rfl
@[simp] theorem State.take_rt (s : State) (r : Request) (rest : List Request) : (s.take r rest).rt = s.rt := rfl
@[simp] theorem State.take_wt (s : State) (r : Request) (rest : List Request) : (s.take r rest).wt = s.wt := rfl
@[simp] theorem State.take_sw (s : State) (r : Request) (rest : List Request) : (s.take r rest).sw = s.sw := rfl
@[simp] theorem State.take_occ (s : State) (r : Request) (rest : List Request) : (s.take r rest).occ = s.occ := rfl
@[simp] theorem State.take_asl (s : State) (r : Request) (rest : List Request) : (s.take r rest).asl = s.asl := rfl
@[simp] theorem State.take_lreg (s : State) (r : Request) (rest : List Request) : (s.take r rest).lreg = s.lreg := rfl
@[simp] theorem State.take_pidx (s : State) (r : Request) (rest : List Request) : (s.take r rest).pidx = s.pidx := rfl
@[simp] theorem State.take_ridx (s : State) (r : Request) (rest : List Request) : (s.take r rest).ridx = s.ridx := rfl
@[simp] theorem State.take_run (s : State) (r : Request) (rest : List Request) : (s.take r rest).run = s.run := rfl
@[simp] theorem State.take_divcnt (s : State) (r : Request) (rest : List Request) : (s.take r rest).divcnt = s.divcnt := rfl
@[simp] theorem State.take_speedset (s : State) (r : Request) (rest : List Request) : (s.take r rest).speedset = s.speedset := rfl
@[simp] theorem State.take_suspset (s : State) (r : Request) (rest : List Request) : (s.take r rest).suspset = s.suspset := rfl
@[simp] theorem State.take_cardrun (s : State) (r : Request) (rest : List Request) : (s.take r rest).cardrun = s.cardrun := rfl
@[simp] theorem State.take_booted (s : State) (r : Request) (rest : List Request) : (s.take r rest).booted = s.booted := rfl
@[simp] theorem State.take_inDispatch (s : State) (r : Request) (rest : List Request) : (s.take r rest).inDispatch = s.inDispatch := rfl
@[simp] theorem State.take_response (s : State) (r : Request) (rest : List Request) : (s.take r rest).response = s.response := rfl
@[simp] theorem State.take_events (s : State) (r : Request) (rest : List Request) : (s.take r rest).events = s.events := rfl
@[simp] theorem State.take_pending (s : State) (r : Request) (rest : List Request) : (s.take r rest).pending = rest := rfl
@[simp] theorem State.take_params (s : State) (r : Request) (rest : List Request) : (s.take r rest).params = s.params := rfl
@[simp] theorem State.take_env (s : State) (r : Request) (rest : List Request) : (s.take r rest).env = r.env := rfl
@[simp] theorem State.take_ramEpoch (s : State) (r : Request) (rest : List Request) : (s.take r rest).ramEpoch = s.ramEpoch := rfl
@[simp] theorem State.take_fresh (s : State) (r : Request) (rest : List Request) : (s.take r rest).fresh = s.fresh := rfl

/-! ### forgetRam -/

@[simp] theorem State.forgetRam_mem (s : State) : s.forgetRam.mem = s.mem.forget cellIsRam := rfl
@[simp] theorem State.forgetRam_rt (s : State) : s.forgetRam.rt = s.rt := rfl
@[simp] theorem State.forgetRam_wt (s : State) : s.forgetRam.wt = s.wt := rfl
@[simp] theorem State.forgetRam_sw (s : State) : s.forgetRam.sw = s.sw := rfl
@[simp] theorem State.forgetRam_occ (s : State) : s.forgetRam.occ = s.occ := rfl
@[simp] theorem State.forgetRam_asl (s : State) : s.forgetRam.asl = s.asl := rfl
@[simp] theorem State.forgetRam_lreg (s : State) : s.forgetRam.lreg = s.lreg := rfl
@[simp] theorem State.forgetRam_pidx (s : State) : s.forgetRam.pidx = s.pidx := rfl
@[simp] theorem State.forgetRam_ridx (s : State) : s.forgetRam.ridx = s.ridx := rfl
@[simp] theorem State.forgetRam_run (s : State) : s.forgetRam.run = s.run := rfl
@[simp] theorem State.forgetRam_divcnt (s : State) : s.forgetRam.divcnt = s.divcnt := rfl
@[simp] theorem State.forgetRam_speedset (s : State) : s.forgetRam.speedset = s.speedset := rfl
@[simp] theorem State.forgetRam_suspset (s : State) : s.forgetRam.suspset = s.suspset := rfl
@[simp] theorem State.forgetRam_cardrun (s : State) : s.forgetRam.cardrun = s.cardrun := rfl
@[simp] theorem State.forgetRam_booted (s : State) : s.forgetRam.booted = s.booted := rfl
@[simp] theorem State.forgetRam_inDispatch (s : State) : s.forgetRam.inDispatch = s.inDispatch := rfl
@[simp] theorem State.forgetRam_response (s : State) : s.forgetRam.response = s.response := rfl
@[simp] theorem State.forgetRam_events (s : State) : s.forgetRam.events = s.events := rfl
@[simp] theorem State.forgetRam_pending (s : State) : s.forgetRam.pending = s.pending := rfl
@[simp] theorem State.forgetRam_params (s : State) : s.forgetRam.params = s.params := rfl
@[simp] theorem State.forgetRam_env (s : State) : s.forgetRam.env = s.env := rfl
@[simp] theorem State.forgetRam_ramEpoch (s : State) : s.forgetRam.ramEpoch = s.ramEpoch + 1 := rfl
@[simp] theorem State.forgetRam_fresh (s : State) : s.forgetRam.fresh = s.fresh := rfl

end Sys2Proof.Machine
end

