-- ==== Sys2Proof/Laws/Chain.lean ====
section
/-! SUPPORT. What a transaction's ending, a nested operation, a callback, the listener chain, DISPATCH and SYNCWRAP can do,
said once. -/

namespace Sys2Proof.Machine

/-! ## How a transaction ends -/

theorem perform_accepted {i : Instr} {s : State} (body : State → State × Word16) (h : accepted i s = true) :
    perform i body s = ((body s).1, okResponse (body s).2) := by simp [perform, h]

theorem perform_refused {i : Instr} {s : State} (body : State → State × Word16) (h : accepted i s = false) :
    perform i body s = (s, refusedResponse) := by simp [perform, h]

/-- Acceptance does not look at the outputs. -/
@[simp] theorem accepted_clearEvents (i : Instr) (s : State) : accepted i s.clearEvents = accepted i s := by
  cases i <;> rfl

theorem transact_accepted {i : Instr} {s : State} (body : State → State × Word16) (h : accepted i s = true) :
    transact i body s = .next ((body s.clearEvents).1.respond (okResponse (body s.clearEvents).2)) := by
  simp [transact, perform, h]

theorem transact_refused {i : Instr} {s : State} (body : State → State × Word16) (h : accepted i s = false) :
    transact i body s = .next (s.clearEvents.respond refusedResponse) := by
  simp [transact, perform, h]

/-- A transaction ends in a next state, in one of two ways. -/
theorem transact_cases {i : Instr} {s : State} {body : State → State × Word16}
    {o : Host.Outcome State Fault Refusal} (h : transact i body s = o) :
    (accepted i s = true ∧ o = .next ((body s.clearEvents).1.respond (okResponse (body s.clearEvents).2))) ∨
    (accepted i s = false ∧ o = .next (s.clearEvents.respond refusedResponse)) := by
  cases ha : accepted i s with
  | true => exact .inl ⟨rfl, h.symm.trans (transact_accepted body ha)⟩
  | false => exact .inr ⟨rfl, h.symm.trans (transact_refused body ha)⟩

/-! ## The frame of the listener chain -/

/-- What a listener chain leaves alone: everything but the switches, ASL, the tables, SPEEDSET, the events and the free
value counter. -/
structure ChainFrame (s t : State) : Prop where
  mem : t.mem = s.mem
  occ : t.occ = s.occ
  lreg : t.lreg = s.lreg
  pidx : t.pidx = s.pidx
  ridx : t.ridx = s.ridx
  run : t.run = s.run
  divcnt : t.divcnt = s.divcnt
  suspset : t.suspset = s.suspset
  cardrun : t.cardrun = s.cardrun
  booted : t.booted = s.booted
  inDispatch : t.inDispatch = s.inDispatch
  response : t.response = s.response
  pending : t.pending = s.pending
  params : t.params = s.params
  env : t.env = s.env
  ramEpoch : t.ramEpoch = s.ramEpoch

theorem ChainFrame.refl (s : State) : ChainFrame s s := by constructor <;> rfl

theorem ChainFrame.trans {s t u : State} (h : ChainFrame s t) (k : ChainFrame t u) : ChainFrame s u :=
  ⟨k.mem.trans h.mem, k.occ.trans h.occ, k.lreg.trans h.lreg, k.pidx.trans h.pidx, k.ridx.trans h.ridx,
    k.run.trans h.run, k.divcnt.trans h.divcnt, k.suspset.trans h.suspset, k.cardrun.trans h.cardrun,
    k.booted.trans h.booted, k.inDispatch.trans h.inDispatch, k.response.trans h.response,
    k.pending.trans h.pending, k.params.trans h.params, k.env.trans h.env, k.ramEpoch.trans h.ramEpoch⟩

/-- A property that the moves of a chain keep: reporting a call, a nested operation and its report, using up a free
value. -/
structure NestedStable (P : State → Prop) : Prop where
  call : ∀ c s, P s → P (s.log (.call c))
  answer : ∀ i r s, P s → P (s.log (.nested i r))
  fresh : ∀ s, P s → P s.nextFresh
  nested : ∀ i s, P s → P (runNested i s).1

namespace NestedStable

variable {P : State → Prop} (hP : NestedStable P)

include hP

theorem runMoves {is : List Instr} {s : State} (h : P s) : P (runMoves is s) := by
  induction is generalizing s with
  | nil => exact h
  | cons i is ih =>
    rw [Sys2Proof.Machine.runMoves]
    split
    · exact ih (hP.answer _ _ _ (hP.nested i s h))
    · exact ih h

theorem runDevice {d : Device} {c : Call} {s : State} (h : P s) : P (runDevice d c s).1 := by
  cases d with
  | program ops value => exact hP.runMoves h
  | oracle => exact hP.runMoves (hP.fresh s h)

theorem callback {l : Listener} {c : Call} {s : State} (h : P s) : P (callback l c s).1 := by
  rw [Sys2Proof.Machine.callback]
  split
  · exact hP.runDevice h
  · exact hP.runDevice h
  · split
    · exact hP.runDevice h
    · exact hP.runDevice (hP.runMoves h)
  · split
    · exact hP.runDevice h
    · exact h

theorem runChain {kind : AccessKind} {addr : Addr} {old : Byte} {ls : List Listener} {cur : Byte} {s : State}
    (h : P s) : P (runChain kind addr old ls cur s).1 := by
  induction ls generalizing cur s with
  | nil => exact h
  | cons l ls ih =>
    rw [Sys2Proof.Machine.runChain]
    split
    · exact ih (hP.callback (hP.call _ _ h))
    · exact ih h

end NestedStable

/-- A nested operation changes only what a chain may change. -/
theorem runNested_frame (i : Instr) (s : State) : ChainFrame s (runNested i s).1 := by
  cases i with
  | swget k => rw [runNested, perform]; split <;> constructor <;> rfl
  | swset k v => rw [runNested, perform]; split <;> constructor <;> rfl
  | swtgl k => rw [runNested, perform]; split <;> constructor <;> rfl
  | slotsel n => rw [runNested, perform]; split <;> constructor <;> rfl
  | bankrd b p o =>
    rw [runNested, perform]
    split
    · simp only [bankrdBody]; split <;> constructor <;> rfl
    · constructor <;> rfl
  | spdreq id => rw [runNested, perform]; split <;> constructor <;> rfl
  | spdrel id => rw [runNested, perform]; split <;> constructor <;> rfl
  | rd => exact .refl s
  | wr => exact .refl s
  | rdw => exact .refl s
  | wrw => exact .refl s
  | swrst => exact .refl s
  | reconf => exact .refl s
  | mapq => exact .refl s
  | bankwr => exact .refl s
  | catt => exact .refl s
  | cdet => exact .refl s
  | crecfg => exact .refl s
  | ladd => exact .refl s
  | lrem => exact .refl s
  | tick => exact .refl s
  | pause => exact .refl s
  | resume => exact .refl s
  | suspend => exact .refl s
  | start => exact .refl s
  | stop => exact .refl s
  | coldrst => exact .refl s
  | warmrst => exact .refl s
  | romload => exact .refl s

theorem frame_stable (s : State) : NestedStable (ChainFrame s) where
  call := fun _ _ h => h.trans (by constructor <;> rfl)
  answer := fun _ _ _ h => h.trans (by constructor <;> rfl)
  fresh := fun _ h => h.trans (by constructor <;> rfl)
  nested := fun i t h => h.trans (runNested_frame i t)

theorem runMoves_frame (is : List Instr) (s : State) : ChainFrame s (runMoves is s) :=
  (frame_stable s).runMoves (.refl s)

theorem runDevice_frame (d : Device) (c : Call) (s : State) : ChainFrame s (runDevice d c s).1 :=
  (frame_stable s).runDevice (.refl s)

theorem callback_frame (l : Listener) (c : Call) (s : State) : ChainFrame s (callback l c s).1 :=
  (frame_stable s).callback (.refl s)

theorem runChain_frame (kind : AccessKind) (addr : Addr) (old : Byte) (ls : List Listener) (cur : Byte) (s : State) :
    ChainFrame s (runChain kind addr old ls cur s).1 :=
  (frame_stable s).runChain (.refl s)

/-- DISPATCH changes only what a chain may change. -/
theorem dispatch_frame (kind : AccessKind) (addr : Addr) (old new : Byte) (s : State) :
    ChainFrame s (dispatch kind addr old new s).1 := by
  have h := runChain_frame kind addr old (s.bucket addr) new (s.setDispatch true)
  exact ⟨h.mem, h.occ, h.lreg, h.pidx, h.ridx, h.run, h.divcnt, h.suspset, h.cardrun, h.booted, rfl, h.response,
    h.pending, h.params, h.env, h.ramEpoch⟩

/-- A property that a chain's moves and the in-dispatch bit keep is kept by DISPATCH. -/
theorem NestedStable.dispatch {P : State → Prop} (hP : NestedStable P) (hd : ∀ b s, P s → P (s.setDispatch b))
    {kind : AccessKind} {addr : Addr} {old new : Byte} {s : State} (h : P s) :
    P (dispatch kind addr old new s).1 :=
  hd _ _ (hP.runChain (hd _ _ h))

/-- With no listener in the bucket, DISPATCH returns the value and changes nothing (43_dispatch.md R135). -/
theorem dispatch_empty (kind : AccessKind) (addr : Addr) (old new : Byte) (s : State) (h : s.bucket addr = []) :
    dispatch kind addr old new s = (s, new) := by
  simp only [dispatch, h, runChain]
  rfl

/-! ## SUSPEND, RESUME and SYNCWRAP -/

/-- SUSPEND leaves everything but RUN, CARDRUN and SUSPSET alone. -/
structure SchedulerFrame (s t : State) : Prop where
  mem : t.mem = s.mem
  rt : t.rt = s.rt
  wt : t.wt = s.wt
  sw : t.sw = s.sw
  occ : t.occ = s.occ
  asl : t.asl = s.asl
  lreg : t.lreg = s.lreg
  pidx : t.pidx = s.pidx
  ridx : t.ridx = s.ridx
  divcnt : t.divcnt = s.divcnt
  speedset : t.speedset = s.speedset
  booted : t.booted = s.booted
  inDispatch : t.inDispatch = s.inDispatch
  response : t.response = s.response
  events : t.events = s.events
  pending : t.pending = s.pending
  params : t.params = s.params
  env : t.env = s.env
  ramEpoch : t.ramEpoch = s.ramEpoch
  fresh : t.fresh = s.fresh

theorem suspendRun_frame (s : State) : SchedulerFrame s s.suspendRun := by
  rw [State.suspendRun, State.pauseRun]; split <;> constructor <;> rfl

theorem resumeRun_frame (s : State) : SchedulerFrame s s.resumeRun := by
  rw [State.resumeRun]; split <;> constructor <;> rfl

theorem suspendRun_run (s : State) : s.suspendRun.run = if s.run = .running then .paused else s.run := by
  rw [State.suspendRun, State.pauseRun]; split <;> rfl

theorem suspendRun_cardrun (s : State) (n : Slot) :
    s.suspendRun.cardrun.get n = (s.cardrun.get n && !s.willSuspend n) := by simp [State.suspendRun]

theorem suspendRun_suspset (s : State) (n : Slot) :
    s.suspendRun.suspset.get n = (s.suspset.get n || s.willSuspend n) := by simp [State.suspendRun]

theorem resumeRun_run (s : State) : s.resumeRun.run = if s.run = .paused then .running else s.run := by
  rw [State.resumeRun]; split <;> rfl

theorem resumeRun_cardrun (s : State) (n : Slot) :
    s.resumeRun.cardrun.get n = if s.run = .paused then (s.suspset.get n || s.cardrun.get n) else s.cardrun.get n := by
  rw [State.resumeRun]; split <;> simp

theorem resumeRun_suspset (s : State) (n : Slot) :
    s.resumeRun.suspset.get n = if s.run = .paused then false else s.suspset.get n := by
  rw [State.resumeRun]; split <;> simp

/-- SYNCWRAP around a dispatch leaves memory, registry, index, slots and RUN alone (42_access.md R127). -/
structure AccessFrame (s t : State) : Prop where
  mem : t.mem = s.mem
  occ : t.occ = s.occ
  lreg : t.lreg = s.lreg
  pidx : t.pidx = s.pidx
  ridx : t.ridx = s.ridx
  run : t.run = s.run
  divcnt : t.divcnt = s.divcnt
  booted : t.booted = s.booted
  inDispatch : t.inDispatch = s.inDispatch
  response : t.response = s.response
  pending : t.pending = s.pending
  params : t.params = s.params
  env : t.env = s.env
  ramEpoch : t.ramEpoch = s.ramEpoch

theorem AccessFrame.refl (s : State) : AccessFrame s s := by constructor <;> rfl

theorem AccessFrame.trans {s t u : State} (h : AccessFrame s t) (k : AccessFrame t u) : AccessFrame s u :=
  ⟨k.mem.trans h.mem, k.occ.trans h.occ, k.lreg.trans h.lreg, k.pidx.trans h.pidx, k.ridx.trans h.ridx,
    k.run.trans h.run, k.divcnt.trans h.divcnt, k.booted.trans h.booted, k.inDispatch.trans h.inDispatch,
    k.response.trans h.response, k.pending.trans h.pending, k.params.trans h.params, k.env.trans h.env,
    k.ramEpoch.trans h.ramEpoch⟩

theorem ChainFrame.access {s t : State} (h : ChainFrame s t) : AccessFrame s t :=
  ⟨h.mem, h.occ, h.lreg, h.pidx, h.ridx, h.run, h.divcnt, h.booted, h.inDispatch, h.response, h.pending, h.params,
    h.env, h.ramEpoch⟩

theorem syncWrap_frame {α : Type} (sync : Bool) (body : State → State × α) (s : State)
    (hb : ∀ t, ChainFrame t (body t).1) : AccessFrame s (syncWrap sync body s).1 := by
  cases sync with
  | false => exact (hb s).access
  | true =>
    have h1 := suspendRun_frame s
    have h2 := hb s.suspendRun
    have h3 := resumeRun_frame (body s.suspendRun).1
    have hr : s.suspendRun.run = if s.run = .running then .paused else s.run := suspendRun_run s
    by_cases hw : s.run = .running
    · have hw' : s.wasRunning = true := by simp [State.wasRunning, hw]
      simp only [syncWrap, if_true, hw']
      refine ⟨h3.mem.trans (h2.mem.trans h1.mem), h3.occ.trans (h2.occ.trans h1.occ),
        h3.lreg.trans (h2.lreg.trans h1.lreg), h3.pidx.trans (h2.pidx.trans h1.pidx),
        h3.ridx.trans (h2.ridx.trans h1.ridx), ?_, h3.divcnt.trans (h2.divcnt.trans h1.divcnt),
        h3.booted.trans (h2.booted.trans h1.booted), h3.inDispatch.trans (h2.inDispatch.trans h1.inDispatch),
        h3.response.trans (h2.response.trans h1.response), h3.pending.trans (h2.pending.trans h1.pending),
        h3.params.trans (h2.params.trans h1.params), h3.env.trans (h2.env.trans h1.env),
        h3.ramEpoch.trans (h2.ramEpoch.trans h1.ramEpoch)⟩
      rw [resumeRun_run, h2.run, hr, if_pos hw, if_pos rfl, hw]
    · have hw' : s.wasRunning = false := by simp [State.wasRunning, hw]
      simp only [syncWrap, if_true, hw']
      refine ⟨h2.mem.trans h1.mem, h2.occ.trans h1.occ, h2.lreg.trans h1.lreg, h2.pidx.trans h1.pidx,
        h2.ridx.trans h1.ridx, ?_, h2.divcnt.trans h1.divcnt, h2.booted.trans h1.booted,
        h2.inDispatch.trans h1.inDispatch, h2.response.trans h1.response, h2.pending.trans h1.pending,
        h2.params.trans h1.params, h2.env.trans h1.env, h2.ramEpoch.trans h1.ramEpoch⟩
      simp only [Bool.false_eq_true, if_false]
      rw [h2.run, hr, if_neg hw]

/-- A property that SUSPEND, RESUME and a chain keep is kept by an access's dispatch. -/
theorem syncWrap_keeps {α : Type} {P : State → Prop} {sync : Bool} {body : State → State × α} {s : State}
    (hs : ∀ t, P t → P t.suspendRun) (hr : ∀ t, P t → P t.resumeRun) (hb : ∀ t, P t → P (body t).1) (h : P s) :
    P (syncWrap sync body s).1 := by
  cases sync with
  | false => exact hb s h
  | true =>
    simp only [syncWrap, if_true]
    split
    · exact hr _ (hb _ (hs s h))
    · exact hb _ (hs s h)

/-! ## Accesses -/

/-- A read changes no memory, registry, index, slot or RUN (20_memory.md R52: "A read never changes a bank cell"). -/
theorem readByte_frame (kind : ReadKind) (evt sync : Bool) (addr : Addr) (s : State) :
    AccessFrame s (readByte kind evt sync addr s).1 := by
  simp only [readByte]
  split
  · split
    · exact .refl s
    · exact syncWrap_frame sync _ s fun t => dispatch_frame _ _ _ _ t
  · split
    · exact syncWrap_frame sync _ s fun t => dispatch_frame _ _ _ _ t
    · exact .refl s

/-- The state of a write between its chain and its store, and the byte its chain ends with. -/
def writeChain (evt sync : Bool) (addr : Addr) (value : Byte) (s : State) : State × Byte :=
  let old := s.oldByte (s.writeEntry (pageOf addr)) (s.readEntry (pageOf addr)) (offsetOf addr)
  if !(s.bucket addr).isEmpty || (decide (pageOf addr ≠ ioPage) && evt) then
    syncWrap sync (dispatch .write addr old value) s
  else (s, value)

/-- A write is its chain, then the store through the entry sampled before it (42_access.md R121, R124). -/
theorem writeByte_eq (evt sync : Bool) (addr : Addr) (value : Byte) (s : State) :
    writeByte evt sync addr value s =
      ((writeChain evt sync addr value s).1.storeThrough (s.writeEntry (pageOf addr)) (offsetOf addr)
          (writeChain evt sync addr value s).2,
        s.oldByte (s.writeEntry (pageOf addr)) (s.readEntry (pageOf addr)) (offsetOf addr)) := rfl

theorem writeChain_frame (evt sync : Bool) (addr : Addr) (value : Byte) (s : State) :
    AccessFrame s (writeChain evt sync addr value s).1 := by
  simp only [writeChain]
  split
  · exact syncWrap_frame sync _ s fun t => dispatch_frame _ _ _ _ t
  · exact .refl s

theorem readByte_keeps {P : State → Prop} (hP : NestedStable P) (hd : ∀ b s, P s → P (s.setDispatch b))
    (hs : ∀ t, P t → P t.suspendRun) (hr : ∀ t, P t → P t.resumeRun) {kind : ReadKind} {evt sync : Bool}
    {addr : Addr} {s : State} (h : P s) : P (readByte kind evt sync addr s).1 := by
  simp only [readByte]
  split
  · split
    · exact h
    · exact syncWrap_keeps hs hr (fun _ => hP.dispatch hd) h
  · split
    · exact syncWrap_keeps hs hr (fun _ => hP.dispatch hd) h
    · exact h

theorem writeByte_keeps {P : State → Prop} (hP : NestedStable P) (hd : ∀ b s, P s → P (s.setDispatch b))
    (hs : ∀ t, P t → P t.suspendRun) (hr : ∀ t, P t → P t.resumeRun)
    (hw : ∀ t w o v, P t → P (State.storeThrough t w o v)) {evt sync : Bool}
    {addr : Addr} {value : Byte} {s : State} (h : P s) : P (writeByte evt sync addr value s).1 := by
  rw [writeByte_eq]
  refine hw _ _ _ _ ?_
  simp only [writeChain]
  split
  · exact syncWrap_keeps hs hr (fun _ => hP.dispatch hd) h
  · exact h

/-- A property that SUSPEND, RESUME, a chain and a store keep is kept by an access of a tick step. -/
theorem runAccess_keeps {P : State → Prop} (hP : NestedStable P) (hd : ∀ b s, P s → P (s.setDispatch b))
    (hs : ∀ t, P t → P t.suspendRun) (hr : ∀ t, P t → P t.resumeRun)
    (hw : ∀ t w o v, P t → P (State.storeThrough t w o v)) {a : Access} {s : State} (h : P s) :
    P (runAccess a s).1 := by
  cases a with
  | rd kind evt addr => exact readByte_keeps hP hd hs hr h
  | wr evt addr value => exact writeByte_keeps hP hd hs hr hw h
  | rdw kind evt addr => exact readByte_keeps hP hd hs hr (readByte_keeps hP hd hs hr h)
  | wrw evt addr data => exact writeByte_keeps hP hd hs hr hw (writeByte_keeps hP hd hs hr hw h)

/-- A property that logging keeps too is kept by all accesses of a tick step. -/
theorem runAccesses_keeps {P : State → Prop} (hP : NestedStable P) (hl : ∀ e s, P s → P (s.log e))
    (hd : ∀ b s, P s → P (s.setDispatch b)) (hs : ∀ t, P t → P t.suspendRun) (hr : ∀ t, P t → P t.resumeRun)
    (hw : ∀ t w o v, P t → P (State.storeThrough t w o v)) {as : List Access} {s : State} (h : P s) :
    P (runAccesses as s) := by
  induction as generalizing s with
  | nil => exact h
  | cons a as ih => exact ih (hl _ _ (runAccess_keeps hP hd hs hr hw h))

theorem runTickStep_keeps {P : State → Prop} (hP : NestedStable P) (hl : ∀ e s, P s → P (s.log e))
    (hd : ∀ b s, P s → P (s.setDispatch b)) (hs : ∀ t, P t → P t.suspendRun) (hr : ∀ t, P t → P t.resumeRun)
    (hw : ∀ t w o v, P t → P (State.storeThrough t w o v)) {k : TickTarget} {p : TickStep} {s : State} (h : P s) :
    P (runTickStep k p s) :=
  runAccesses_keeps hP hl hd hs hr hw (hl _ _ h)

theorem tickMisc_keeps {P : State → Prop} (hP : NestedStable P) (hl : ∀ e s, P s → P (s.log e))
    (hd : ∀ b s, P s → P (s.setDispatch b)) (hs : ∀ t, P t → P t.suspendRun) (hr : ∀ t, P t → P t.resumeRun)
    (hw : ∀ t w o v, P t → P (State.storeThrough t w o v)) {k : Nat} {ps : List TickStep} {s : State} (h : P s) :
    P (tickMisc k ps s) := by
  induction ps generalizing k s with
  | nil => exact h
  | cons p ps ih => rw [tickMisc]; exact ih (runTickStep_keeps hP hl hd hs hr hw h)

theorem tickCards_keeps {P : State → Prop} (hP : NestedStable P) (hl : ∀ e s, P s → P (s.log e))
    (hd : ∀ b s, P s → P (s.setDispatch b)) (hs : ∀ t, P t → P t.suspendRun) (hr : ∀ t, P t → P t.resumeRun)
    (hw : ∀ t w o v, P t → P (State.storeThrough t w o v)) {plan : TickPlan} {s : State} (h : P s) :
    P (tickCards plan s) := by
  have key : ∀ (ns : List Slot) (t : State), P t →
      P (ns.foldl (fun t n => if t.occ.get n then runTickStep (.card n) (plan.cards.get n) t else t) t) := by
    intro ns
    induction ns with
    | nil => intro t ht; exact ht
    | cons n ns ih =>
      intro t ht
      rw [List.foldl_cons]
      refine ih _ ?_
      split
      · exact runTickStep_keeps hP hl hd hs hr hw ht
      · exact ht
  exact key _ _ h

/-- The devices' part of TICK keeps what their accesses keep. -/
theorem tickDevices_keeps {P : State → Prop} (hP : NestedStable P) (hl : ∀ e s, P s → P (s.log e))
    (hd : ∀ b s, P s → P (s.setDispatch b)) (hs : ∀ t, P t → P t.suspendRun) (hr : ∀ t, P t → P t.resumeRun)
    (hw : ∀ t w o v, P t → P (State.storeThrough t w o v)) {plan : TickPlan} {s : State} (h : P s) :
    P (tickDevices plan s) :=
  tickMisc_keeps hP hl hd hs hr hw (tickCards_keeps hP hl hd hs hr hw (runTickStep_keeps hP hl hd hs hr hw h))

end Sys2Proof.Machine
end

