-- ==== Sys2Proof/Laws/Encoding.lean ====
section
/-! SUPPORT. The fields of an assembled word, and the small fields of the encodings. -/

namespace Sys2Proof

/-- A word put together from fields, as a number. -/
theorem assemble_toNat (o m : Byte) (a d : Word16) :
    (assemble o m a d).toNat = o.toNat * 2 ^ 40 + m.toNat * 2 ^ 32 + a.toNat * 2 ^ 16 + d.toNat := by
  simp only [assemble, BitVec.toNat_append]
  rw [← Nat.shiftLeft_add_eq_or_of_lt m.isLt, ← Nat.shiftLeft_add_eq_or_of_lt a.isLt,
    ← Nat.shiftLeft_add_eq_or_of_lt d.isLt]
  simp only [Nat.shiftLeft_eq]
  omega

@[simp] theorem opcField_assemble (o m : Byte) (a d : Word16) : opcField (assemble o m a d) = o := by
  apply BitVec.eq_of_toNat_eq
  have h1 := m.isLt; have h2 := a.isLt; have h3 := d.isLt; have h4 := o.isLt
  rw [opcField, BitVec.extractLsb'_toNat, assemble_toNat, Nat.shiftRight_eq_div_pow]
  omega

@[simp] theorem modField_assemble (o m : Byte) (a d : Word16) : modField (assemble o m a d) = m := by
  apply BitVec.eq_of_toNat_eq
  have h1 := m.isLt; have h2 := a.isLt; have h3 := d.isLt
  rw [modField, BitVec.extractLsb'_toNat, assemble_toNat, Nat.shiftRight_eq_div_pow]
  omega

@[simp] theorem addrField_assemble (o m : Byte) (a d : Word16) : addrField (assemble o m a d) = a := by
  apply BitVec.eq_of_toNat_eq
  have h1 := a.isLt; have h2 := d.isLt
  rw [addrField, BitVec.extractLsb'_toNat, assemble_toNat, Nat.shiftRight_eq_div_pow]
  omega

@[simp] theorem dataField_assemble (o m : Byte) (a d : Word16) : dataField (assemble o m a d) = d := by
  apply BitVec.eq_of_toNat_eq
  have h1 := d.isLt
  rw [dataField, BitVec.extractLsb'_toNat, assemble_toNat, Nat.shiftRight_eq_div_pow]
  omega

/-- Every word is its four fields. -/
theorem assemble_fields (w : TxnWord) : assemble (opcField w) (modField w) (addrField w) (dataField w) = w := by
  apply BitVec.eq_of_toNat_eq
  have h := w.isLt
  rw [assemble_toNat]
  simp only [opcField, modField, addrField, dataField, BitVec.extractLsb'_toNat, Nat.shiftRight_eq_div_pow]
  omega

/-- MOD of format A, field by field (30_encoding.md R71 table E1). -/
theorem accessMod_fields (k : BitVec 2) (e y : Bool) :
    (accessMod k e y).extractLsb' 4 4 = 0#4 ∧ (accessMod k e y).extractLsb' 0 2 = k ∧
      (accessMod k e y).getLsbD 2 = e ∧ (accessMod k e y).getLsbD 3 = y := by
  have hk : k = 0#2 ∨ k = 1#2 ∨ k = 2#2 ∨ k = 3#2 := by
    have h := k.isLt
    rcases (by omega : k.toNat = 0 ∨ k.toNat = 1 ∨ k.toNat = 2 ∨ k.toNat = 3) with h | h | h | h
    · exact .inl (BitVec.eq_of_toNat_eq h)
    · exact .inr (.inl (BitVec.eq_of_toNat_eq h))
    · exact .inr (.inr (.inl (BitVec.eq_of_toNat_eq h)))
    · exact .inr (.inr (.inr (BitVec.eq_of_toNat_eq h)))
  rcases hk with rfl | rfl | rfl | rfl <;> cases e <;> cases y <;> decide

/-- The K field of format S (30_encoding.md R71 table E1, R77). -/
theorem switch_field (k : Switch) :
    (BitVec.ofNat 8 k.index).extractLsb' 4 4 = 0#4 ∧
      Switch.ofIndex? ((BitVec.ofNat 8 k.index).extractLsb' 0 4).toNat = some k := by
  cases k <;> decide

/-- The BANK field of format B (30_encoding.md R71 table E1, R76). -/
theorem bank_field (b : Bank) :
    (BitVec.ofNat 8 b.id).extractLsb' 5 3 = 0#3 ∧
      Bank.ofId? ((BitVec.ofNat 8 b.id).extractLsb' 0 5).toNat = some b := by
  cases b with
  | fw n => cases n <;> decide
  | exp n => cases n <;> decide
  | main | aux | rom | crom | lcMain | lcAux | lc2Main | lc2Aux | blank => decide

/-- The SLOT field of format C (30_encoding.md R71 table E1). -/
theorem slot_field (n : Option Slot) :
    (BitVec.ofNat 8 (slotOptionNumber n)).extractLsb' 3 5 = 0#5 ∧
      Slot.ofNumber? ((BitVec.ofNat 8 (slotOptionNumber n)).extractLsb' 0 3).toNat = n := by
  cases n with
  | none => decide
  | some n => cases n <;> decide

end Sys2Proof
end

