-- ==== Sys2Proof/Laws/Exec.lean ====
section
/-! SUPPORT. What a transaction at the port does before its effect: accepted or refused; what a store through a map entry
and an access without listeners do. -/

namespace Sys2Proof.Machine

/-- Every transaction is carried out by `transact` over its effect. -/
theorem exec_eq_transact (i : Instr) (s : State) : ∃ body, exec i s = transact i body s := by
  cases i <;> exact ⟨_, rfl⟩

/-- A transaction that is not accepted ends as a refused one. -/
theorem exec_refused {i : Instr} {s : State} (h : accepted i s = false) :
    exec i s = .next (s.clearEvents.respond refusedResponse) := by
  obtain ⟨body, hb⟩ := exec_eq_transact i s
  rw [hb, transact_refused body h]

/-- An accepted transaction has its effect. -/
theorem exec_accepted {i : Instr} {s : State} (body : State → State × Word16) (hb : exec i s = transact i body s)
    (h : accepted i s = true) :
    exec i s = .next ((body s.clearEvents).1.respond (okResponse (body s.clearEvents).2)) := by
  rw [hb, transact_accepted body h]

/-! ## Cells -/

theorem cell_blank (s : State) (p o : Byte) : s.cell .blank p o = s.params.blankFill := if_pos rfl

/-- A cell depends on memory, the epoch and BLANK_FILL only. -/
theorem cell_congr {s t : State} (hm : t.mem = s.mem) (hp : t.params = s.params) (he : t.ramEpoch = s.ramEpoch)
    (b : Bank) (p o : Byte) : t.cell b p o = s.cell b p o := by
  simp only [State.cell, State.epochOf, hm, hp, he]

theorem AccessFrame.cell {s t : State} (h : AccessFrame s t) (b : Bank) (p o : Byte) : t.cell b p o = s.cell b p o :=
  cell_congr h.mem h.params h.ramEpoch b p o

theorem cell_storeCell_same (s : State) {b : Bank} (p o v : Byte) (hb : b ≠ .blank) :
    (s.storeCell b p o v).cell b p o = v := by
  simp [State.cell, State.storeCell, hb, Memory.read_write_same]

theorem cell_storeCell_other (s : State) {b c : Bank} {p q o r : Byte} (v : Byte) (h : (c, q, r) ≠ (b, p, o)) :
    (s.storeCell b p o v).cell c q r = s.cell c q r := by
  by_cases hb : b = .blank
  · simp only [State.storeCell, hb, if_true]
  · have hn : cellNumber c q r ≠ cellNumber b p o := fun hc => by
      obtain ⟨rfl, rfl, rfl⟩ := cellNumber_injective hc
      exact h rfl
    simp only [State.cell, State.storeCell, hb, if_false, Memory.read_write_other _ v hn, State.epochOf]

/-- A store through a map entry reaches the entry's cell. -/
theorem cell_storeThrough_same (s : State) (r : PageRef) (o v : Byte) (hb : r.bank ≠ .blank) :
    (s.storeThrough (some r) o v).cell r.bank r.page o = v :=
  cell_storeCell_same s _ _ _ hb

/-- A store through a map entry reaches no other cell. -/
theorem cell_storeThrough_other (s : State) (w : MapEntry) (o v : Byte) (b : Bank) (p q : Byte)
    (h : ¬ (w = some ⟨b, p⟩ ∧ q = o)) : (s.storeThrough w o v).cell b p q = s.cell b p q := by
  cases w with
  | none => rfl
  | some r =>
    refine cell_storeCell_other s v fun hc => h ?_
    simp only [Prod.mk.injEq] at hc
    obtain ⟨h1, h2, h3⟩ := hc
    exact ⟨by rw [h1, h2], h3⟩

/-! ## Accesses without listeners -/

@[simp] theorem bucket_clearEvents (s : State) (a : Addr) : s.clearEvents.bucket a = s.bucket a := rfl

@[simp] theorem bucket_suspendRun (s : State) (a : Addr) : s.suspendRun.bucket a = s.bucket a := by
  simp only [State.bucket, (suspendRun_frame s).ridx, (suspendRun_frame s).pidx]

/-- With EVT = 0 and an empty bucket a read runs no chain (42_access.md R120, R125, R126). -/
theorem readByte_plain (kind : ReadKind) (sync : Bool) (a : Addr) (s : State) (h : s.bucket a = []) :
    readByte kind false sync a s =
      (s, if pageOf a = ioPage then s.params.floatBus else s.fetchByte (s.readEntry (pageOf a)) (offsetOf a)) := by
  simp only [readByte, h, List.isEmpty_nil, if_true, Bool.not_true, Bool.or_false, Bool.false_eq_true, if_false]
  split <;> rfl

/-- With EVT = 0 and an empty bucket a write runs no chain (42_access.md R121, R125, R126). -/
theorem writeChain_plain (sync : Bool) (a : Addr) (v : Byte) (s : State) (h : s.bucket a = []) :
    writeChain false sync a v s = (s, v) := by
  simp [writeChain, h]

end Sys2Proof.Machine
end

