-- ==== Sys2Proof/Laws/Outputs.lean ====
section
/-! SUPPORT. An access depends on no output of earlier transactions, not on DIVCNT and not on which cards run: changing
those before it is changing them after it. So word accesses and the accesses of TICK are what their bytes' transactions
at the port are (20_memory.md R49, 42_access.md R122, R123, 45_scheduler.md R160). -/

namespace Sys2Proof.Machine

/-- The state with other events before its own, another response, DIVCNT, and records of the cards. -/
def State.veil (e : List Event) (r : Response) (d : Nat) (c u : PerSlot Bool) (s : State) : State :=
  { s with events := e ++ s.events, response := r, divcnt := d, cardrun := c, suspset := u }

/-- `f` veils what it is applied to; a computation commutes with it. -/
def Veiled {α : Type} (e : List Event) (r : Response) (d : Nat) (c u : PerSlot Bool) (x y : State × α) : Prop :=
  y = (x.1.veil e r d c u, x.2)

variable {e : List Event} {r : Response} {d : Nat} {c u : PerSlot Bool}

theorem veil_log (s : State) (x : Event) : (s.veil e r d c u).log x = (s.log x).veil e r d c u := by
  simp only [State.veil, State.log, List.append_assoc]

theorem accepted_veil (i : Instr) (s : State) : accepted i (s.veil e r d c u) = accepted i s := by cases i <;> rfl

theorem perform_veil {i : Instr} {body : State → State × Word16} {s : State}
    (h : Veiled e r d c u (body s) (body (s.veil e r d c u))) :
    Veiled e r d c u (perform i body s) (perform i body (s.veil e r d c u)) := by
  simp only [Veiled, perform, accepted_veil] at *
  rw [h]
  split <;> rfl

theorem runNested_veil (i : Instr) (s : State) :
    Veiled e r d c u (runNested i s) (runNested i (s.veil e r d c u)) := by
  cases i with
  | swget k => exact perform_veil rfl
  | swset k v => exact perform_veil rfl
  | swtgl k => exact perform_veil rfl
  | slotsel n => exact perform_veil rfl
  | bankrd b p o =>
    refine perform_veil ?_
    have h : (s.veil e r d c u).bankAbsent b = s.bankAbsent b := by cases b <;> rfl
    simp only [Veiled, bankrdBody, h]
    split <;> rfl
  | spdreq id => exact perform_veil rfl
  | spdrel id => exact perform_veil rfl
  | rd => rfl
  | wr => rfl
  | rdw => rfl
  | wrw => rfl
  | swrst => rfl
  | reconf => rfl
  | mapq => rfl
  | bankwr => rfl
  | catt => rfl
  | cdet => rfl
  | crecfg => rfl
  | ladd => rfl
  | lrem => rfl
  | tick => rfl
  | pause => rfl
  | resume => rfl
  | suspend => rfl
  | start => rfl
  | stop => rfl
  | coldrst => rfl
  | warmrst => rfl
  | romload => rfl

theorem runMoves_veil (is : List Instr) (s : State) :
    runMoves is (s.veil e r d c u) = (runMoves is s).veil e r d c u := by
  induction is generalizing s with
  | nil => rfl
  | cons i is ih =>
    simp only [runMoves]
    split
    · rw [runNested_veil i s, veil_log, ih]
    · exact ih s

theorem runDevice_veil (v : Device) (x : Call) (s : State) :
    Veiled e r d c u (runDevice v x s) (runDevice v x (s.veil e r d c u)) := by
  cases v with
  | program ops value => simp only [Veiled, runDevice, runMoves_veil]; rfl
  | oracle =>
    simp only [Veiled, runDevice, ← runMoves_veil]
    rfl

theorem callback_veil (l : Listener) (x : Call) (s : State) :
    Veiled e r d c u (callback l x s) (callback l x (s.veil e r d c u)) := by
  simp only [callback]
  split
  · exact runDevice_veil _ _ _
  · exact runDevice_veil _ _ _
  · split
    · exact runDevice_veil _ _ _
    · rw [runMoves_veil]; exact runDevice_veil _ _ _
  · rename_i n _
    have h : expansionGate n (s.veil e r d c u) = expansionGate n s := rfl
    rw [h]
    split
    · exact runDevice_veil _ _ _
    · rfl

theorem runChain_veil (kind : AccessKind) (addr : Addr) (old : Byte) (ls : List Listener) (cur : Byte) (s : State) :
    Veiled e r d c u (runChain kind addr old ls cur s) (runChain kind addr old ls cur (s.veil e r d c u)) := by
  induction ls generalizing cur s with
  | nil => rfl
  | cons l ls ih =>
    simp only [runChain]
    split
    · rw [veil_log, callback_veil l _ (s.log _)]; exact ih _ _
    · exact ih _ _

theorem dispatch_veil (kind : AccessKind) (addr : Addr) (old new : Byte) (s : State) :
    Veiled e r d c u (dispatch kind addr old new s) (dispatch kind addr old new (s.veil e r d c u)) := by
  have h := runChain_veil (e := e) (r := r) (d := d) (c := c) (u := u) kind addr old (s.bucket addr) new
    (s.setDispatch true)
  simp only [Veiled, dispatch] at *
  have k : (s.veil e r d c u).setDispatch true = (s.setDispatch true).veil e r d c u := rfl
  have b : (s.veil e r d c u).bucket addr = s.bucket addr := rfl
  rw [k, b, h]
  rfl

/-! ## The outputs and DIVCNT alone -/

/-- The state with other events before its own, another response and DIVCNT. -/
def State.outputs (e : List Event) (r : Response) (d : Nat) (s : State) : State := s.veil e r d s.cardrun s.suspset

theorem dispatch_outputs (kind : AccessKind) (addr : Addr) (old new : Byte) (s : State) :
    dispatch kind addr old new (s.outputs e r d) =
      ((dispatch kind addr old new s).1.outputs e r d, (dispatch kind addr old new s).2) := by
  have h := dispatch_frame kind addr old new s
  rw [State.outputs, dispatch_veil kind addr old new s, State.outputs, h.cardrun, h.suspset]

theorem suspendRun_outputs (s : State) : (s.outputs e r d).suspendRun = s.suspendRun.outputs e r d := by
  have hr : (s.outputs e r d).run = s.run := rfl
  simp only [State.suspendRun, State.pauseRun, hr]
  split <;> rfl

theorem resumeRun_outputs (s : State) : (s.outputs e r d).resumeRun = s.resumeRun.outputs e r d := by
  have hr : (s.outputs e r d).run = s.run := rfl
  simp only [State.resumeRun, hr]
  split <;> rfl

theorem syncWrap_dispatch_outputs (sync : Bool) (kind : AccessKind) (addr : Addr) (old new : Byte) (s : State) :
    syncWrap sync (dispatch kind addr old new) (s.outputs e r d) =
      ((syncWrap sync (dispatch kind addr old new) s).1.outputs e r d,
        (syncWrap sync (dispatch kind addr old new) s).2) := by
  have hw : (s.outputs e r d).wasRunning = s.wasRunning := rfl
  cases sync with
  | false => exact dispatch_outputs kind addr old new s
  | true =>
    simp only [syncWrap, if_true, suspendRun_outputs, dispatch_outputs, hw, resumeRun_outputs]
    split <;> rfl

theorem readByte_outputs (kind : ReadKind) (evt sync : Bool) (addr : Addr) (s : State) :
    readByte kind evt sync addr (s.outputs e r d) =
      ((readByte kind evt sync addr s).1.outputs e r d, (readByte kind evt sync addr s).2) := by
  have b : (s.outputs e r d).bucket addr = s.bucket addr := rfl
  have f : (s.outputs e r d).fetchByte ((s.outputs e r d).readEntry (pageOf addr)) (offsetOf addr) =
    s.fetchByte (s.readEntry (pageOf addr)) (offsetOf addr) := rfl
  simp only [readByte, b, f, syncWrap_dispatch_outputs]
  split
  · split <;> rfl
  · split <;> rfl

theorem storeThrough_outputs (s : State) (w : MapEntry) (o v : Byte) :
    (s.outputs e r d).storeThrough w o v = (s.storeThrough w o v).outputs e r d := by cases w <;> rfl

theorem writeByte_outputs (evt sync : Bool) (addr : Addr) (value : Byte) (s : State) :
    writeByte evt sync addr value (s.outputs e r d) =
      ((writeByte evt sync addr value s).1.outputs e r d, (writeByte evt sync addr value s).2) := by
  have b : (s.outputs e r d).bucket addr = s.bucket addr := rfl
  have w : (s.outputs e r d).writeEntry (pageOf addr) = s.writeEntry (pageOf addr) := rfl
  have f : ∀ x, (s.outputs e r d).oldByte x ((s.outputs e r d).readEntry (pageOf addr)) (offsetOf addr) =
    s.oldByte x (s.readEntry (pageOf addr)) (offsetOf addr) := fun x => by cases x <;> rfl
  simp only [writeByte, b, w, f, syncWrap_dispatch_outputs]
  split <;> simp only [storeThrough_outputs]

/-! ## An access of a tick step is its transaction at the port -/

theorem runAccess_outputs (a : Access) (s : State) :
    runAccess a (s.outputs e r d) = ((runAccess a s).1.outputs e r d, (runAccess a s).2) := by
  cases a <;> simp only [runAccess, rdBody, wrBody, rdwBody, wrwBody, readByte_outputs, writeByte_outputs]

/-- After the first reset an access with SYNC = 0 is accepted, inside a dispatch too, and has its effect. -/
theorem exec_access (a : Access) (s : State) (hb : s.booted = true) :
    exec a.instr s = .next ((runAccess a s.clearEvents).1.respond (okResponse (runAccess a s.clearEvents).2)) := by
  have h : accepted a.instr s = true := by
    cases a <;> simp [Access.instr, accepted, hb, Instr.wellFormed, isStructural, ownPrecondition, allowedInDispatch]
  cases a <;> exact exec_accepted _ rfl h

/-- `s` is `p` but for the outputs and DIVCNT. -/
def OutputsOf (s p : State) : Prop := s = { p with events := s.events, response := s.response, divcnt := s.divcnt }

/-- An access inside TICK and the same access at the port, from states that differ in outputs and DIVCNT, end so; TICK's
events grow by the port's, and RDATA is the port's. -/
theorem runAccess_at_port (a : Access) {s p : State} (h : OutputsOf s p) (hb : p.booted = true) :
    ∃ t, exec a.instr p = .next t ∧ OutputsOf (runAccess a s).1 t ∧
      (runAccess a s).1.events = s.events ++ t.events ∧ (runAccess a s).1.divcnt = s.divcnt ∧
      (runAccess a s).2 = t.response.rdata := by
  refine ⟨_, exec_access a p hb, ?_⟩
  have hs : s = p.clearEvents.outputs s.events s.response s.divcnt := by
    rw [OutputsOf] at h
    rw [h]; simp [State.outputs, State.veil, State.clearEvents]
  have hr := runAccess_outputs (e := s.events) (r := s.response) (d := s.divcnt) a p.clearEvents
  rw [← hs] at hr
  rw [hr]
  exact ⟨rfl, rfl, rfl, rfl⟩

/-! ## The cards' records too: what SUSPEND and RESUME do to a veiled state is again veiled -/

/-- `y` is `x` but for the records of the cards. -/
def CardVeiled {α : Type} (x y : State × α) : Prop :=
  y.2 = x.2 ∧ y.1 = { x.1 with cardrun := y.1.cardrun, suspset := y.1.suspset }

theorem CardVeiled.refl {α : Type} (x : State × α) : CardVeiled x x := ⟨rfl, rfl⟩

theorem CardVeiled.trans {α : Type} {x y z : State × α} (h : CardVeiled x y) (k : CardVeiled y z) : CardVeiled x z :=
  ⟨k.1.trans h.1, by rw [k.2, h.2]⟩

/-- The state with these records of the cards. -/
def State.withCards (c u : PerSlot Bool) (s : State) : State := s.veil [] s.response s.divcnt c u

theorem withCards_eq (s : State) : s.withCards c u = { s with cardrun := c, suspset := u } := rfl

theorem dispatch_withCards (kind : AccessKind) (addr : Addr) (old new : Byte) (s : State) :
    dispatch kind addr old new (s.withCards c u) =
      ((dispatch kind addr old new s).1.withCards c u, (dispatch kind addr old new s).2) := by
  have h := dispatch_frame kind addr old new s
  rw [State.withCards, dispatch_veil kind addr old new s, State.withCards, h.response, h.divcnt]

theorem suspendRun_withCards (s : State) : ∃ c' u', (s.withCards c u).suspendRun = s.suspendRun.withCards c' u' := by
  refine ⟨(s.withCards c u).suspendRun.cardrun, (s.withCards c u).suspendRun.suspset, ?_⟩
  have hr : (s.withCards c u).run = s.run := rfl
  simp only [State.suspendRun, State.pauseRun, hr]
  split <;> rfl

theorem resumeRun_withCards (s : State) : ∃ c' u', (s.withCards c u).resumeRun = s.resumeRun.withCards c' u' := by
  refine ⟨(s.withCards c u).resumeRun.cardrun, (s.withCards c u).resumeRun.suspset, ?_⟩
  have hr : (s.withCards c u).run = s.run := rfl
  simp only [State.resumeRun, hr]
  split <;> rfl

theorem syncWrap_dispatch_withCards (sync : Bool) (kind : AccessKind) (addr : Addr) (old new : Byte) (s : State) :
    CardVeiled (syncWrap sync (dispatch kind addr old new) s)
      (syncWrap sync (dispatch kind addr old new) (s.withCards c u)) := by
  have hw : (s.withCards c u).wasRunning = s.wasRunning := rfl
  cases sync with
  | false =>
    simp only [syncWrap, Bool.false_eq_true, if_false, dispatch_withCards]
    exact ⟨rfl, rfl⟩
  | true =>
    obtain ⟨c1, u1, h1⟩ := suspendRun_withCards (c := c) (u := u) s
    simp only [syncWrap, if_true, h1, hw, dispatch_withCards]
    split
    · obtain ⟨c2, u2, h2⟩ := resumeRun_withCards (c := c1) (u := u1) (dispatch kind addr old new s.suspendRun).1
      simp only [h2]
      exact ⟨rfl, rfl⟩
    · exact ⟨rfl, rfl⟩

/-- A read of a state that differs in the records of the cards differs in them at most. -/
theorem readByte_withCards (kind : ReadKind) (evt sync : Bool) (addr : Addr) (s : State) :
    CardVeiled (readByte kind evt sync addr s) (readByte kind evt sync addr (s.withCards c u)) := by
  have b : (s.withCards c u).bucket addr = s.bucket addr := rfl
  have f : (s.withCards c u).fetchByte ((s.withCards c u).readEntry (pageOf addr)) (offsetOf addr) =
    s.fetchByte (s.readEntry (pageOf addr)) (offsetOf addr) := rfl
  simp only [readByte, b, f]
  split
  · split
    · exact ⟨rfl, rfl⟩
    · exact syncWrap_dispatch_withCards _ _ _ _ _ _
  · split
    · exact syncWrap_dispatch_withCards _ _ _ _ _ _
    · exact ⟨rfl, rfl⟩

theorem CardVeiled.store {x y : State × Byte} (h : CardVeiled x y) (w : MapEntry) (o old : Byte) :
    CardVeiled (x.1.storeThrough w o x.2, old) (y.1.storeThrough w o y.2, old) := by
  obtain ⟨h1, h2⟩ := h
  rw [h1, h2]
  cases w <;> exact ⟨rfl, rfl⟩

/-- A write of a state that differs in the records of the cards differs in them at most. -/
theorem writeByte_withCards (evt sync : Bool) (addr : Addr) (value : Byte) (s : State) :
    CardVeiled (writeByte evt sync addr value s) (writeByte evt sync addr value (s.withCards c u)) := by
  have b : (s.withCards c u).bucket addr = s.bucket addr := rfl
  have w : (s.withCards c u).writeEntry (pageOf addr) = s.writeEntry (pageOf addr) := rfl
  have f : ∀ x, (s.withCards c u).oldByte x ((s.withCards c u).readEntry (pageOf addr)) (offsetOf addr) =
    s.oldByte x (s.readEntry (pageOf addr)) (offsetOf addr) := fun x => by cases x <;> rfl
  simp only [writeByte, b, w, f]
  refine CardVeiled.store ?_ _ _ _
  split
  · exact syncWrap_dispatch_withCards _ _ _ _ _ _
  · exact ⟨rfl, rfl⟩

end Sys2Proof.Machine
end

