-- ==== Sys2Proof/Laws/PerInstr.lean ====
section
/-! SUPPORT. Laws stated instruction by instruction. FieldsOfEncoding: the four fields of an instruction's word are the
instruction's own (30_encoding.md R70, R71). -/

namespace Sys2Proof.Laws.FieldsOfEncoding

open Sys2Proof

/-- The fields `T[47:40]`, `T[39:32]`, `T[31:16]`, `T[15:0]` of the word. -/
def Statement (i : Instr) : Prop :=
  opcField (encode i) = i.opcode ∧ modField (encode i) = i.modBits ∧
    addrField (encode i) = i.addrBits ∧ dataField (encode i) = i.dataBits

theorem fields_of_encode (i : Instr) : Statement i :=
  ⟨opcField_assemble _ _ _ _, modField_assemble _ _ _ _, addrField_assemble _ _ _ _, dataField_assemble _ _ _ _⟩

theorem rd (kind : ReadKind) (evt sync : Bool) (addr : Addr) : Statement (.rd kind evt sync addr) := fields_of_encode _
theorem wr (evt sync : Bool) (addr : Addr) (value : Byte) : Statement (.wr evt sync addr value) := fields_of_encode _
theorem rdw (kind : ReadKind) (evt sync : Bool) (addr : Addr) : Statement (.rdw kind evt sync addr) := fields_of_encode _
theorem wrw (evt sync : Bool) (addr : Addr) (data : Word16) : Statement (.wrw evt sync addr data) := fields_of_encode _
theorem swget (k : Switch) : Statement (.swget k) := fields_of_encode _
theorem swset (k : Switch) (v : Bool) : Statement (.swset k v) := fields_of_encode _
theorem swtgl (k : Switch) : Statement (.swtgl k) := fields_of_encode _
theorem swrst : Statement .swrst := fields_of_encode _
theorem reconf : Statement .reconf := fields_of_encode _
theorem mapq (tbl : MapTable) (page : Byte) : Statement (.mapq tbl page) := fields_of_encode _
theorem bankrd (bank : Bank) (bpage boff : Byte) : Statement (.bankrd bank bpage boff) := fields_of_encode _
theorem bankwr (bank : Bank) (bpage boff value : Byte) : Statement (.bankwr bank bpage boff value) := fields_of_encode _
theorem catt (slot : Slot) : Statement (.catt slot) := fields_of_encode _
theorem cdet (slot : Slot) : Statement (.cdet slot) := fields_of_encode _
theorem crecfg (slot : Slot) : Statement (.crecfg slot) := fields_of_encode _
theorem slotsel (slot : Option Slot) : Statement (.slotsel slot) := fields_of_encode _
theorem ladd (id : Word16) : Statement (.ladd id) := fields_of_encode _
theorem lrem (id : Word16) : Statement (.lrem id) := fields_of_encode _
theorem tick : Statement .tick := fields_of_encode _
theorem pause : Statement .pause := fields_of_encode _
theorem resume : Statement .resume := fields_of_encode _
theorem suspend : Statement .suspend := fields_of_encode _
theorem start : Statement .start := fields_of_encode _
theorem stop : Statement .stop := fields_of_encode _
theorem spdreq (id : Word16) : Statement (.spdreq id) := fields_of_encode _
theorem spdrel (id : Word16) : Statement (.spdrel id) := fields_of_encode _
theorem coldrst : Statement .coldrst := fields_of_encode _
theorem warmrst : Statement .warmrst := fields_of_encode _
theorem romload : Statement .romload := fields_of_encode _

end Sys2Proof.Laws.FieldsOfEncoding
end

