-- ==== Sys2Proof/Laws/Reconf.lean ====
section
/-! SUPPORT. Small laws of the reconfiguration engine: reading a tabulated table, what an overlay does on and off its
range, and what each step of 41_mmu.md R102 to R111 leaves of either table. -/

namespace Sys2Proof.Machine

@[simp] theorem tabulate_length (f : Nat → MapEntry) : (tabulate f).length = 256 := by simp [tabulate]

theorem tableEntry_tabulate (f : Nat → MapEntry) {p : Nat} (h : p < 256) : tableEntry (tabulate f) p = f p := by
  simp [tableEntry, tabulate, h]

theorem tableEntry_tabulate_out (f : Nat → MapEntry) {p : Nat} (h : 256 ≤ p) : tableEntry (tabulate f) p = none := by
  simp [tableEntry, tabulate, Nat.not_lt.mpr h]

theorem overlay_in {lo hi p : Nat} (f t : Nat → MapEntry) (h : lo ≤ p ∧ p ≤ hi) : overlay lo hi f t p = f p := if_pos h

theorem overlay_out {lo hi p : Nat} (f t : Nat → MapEntry) (h : ¬ (lo ≤ p ∧ p ≤ hi)) : overlay lo hi f t p = t p :=
  if_neg h

/-- Entry `p` of the read table RECONF leaves. -/
theorem readTableOf_entry (x : MapInputs) {p : Nat} (h : p < 256) : tableEntry (readTableOf x) p = (reconfigure x).rt p :=
  tableEntry_tabulate _ h

/-- Entry `p` of the write table RECONF leaves. -/
theorem writeTableOf_entry (x : MapInputs) {p : Nat} (h : p < 256) :
    tableEntry (writeTableOf x) p = (reconfigure x).wt p :=
  tableEntry_tabulate _ h

/-- Steps 8 and 9 do not touch the write table (41_mmu.md R110, R111). -/
theorem reconfigure_wt (x : MapInputs) :
    (reconfigure x).wt =
      (mapStep7 x (mapStep6 x (mapStep5 x (mapStep4 x (mapStep3 (mapStep2 (mapStep1 x mapPreclear))))))).wt := by
  simp only [reconfigure, mapStep9, mapStep8]
  split <;> rfl

/-- The firmware overlays of step 8 on the seven windows (41_mmu.md R110). -/
theorem firmwareOverlays_in (x : MapInputs) (t : Nat → MapEntry) (n : Slot) :
    Slot.all.foldl (firmwareOverlay x) t (0xC0 + n.number) =
      if x.occ.get n then entry (.fw n) 0 else entry .blank 0 := by
  cases n <;> rfl

/-- The firmware overlays of step 8 off the seven windows. -/
theorem firmwareOverlays_out (x : MapInputs) (t : Nat → MapEntry) {p : Nat} (h : p < 0xC1 ∨ 0xC7 < p) :
    Slot.all.foldl (firmwareOverlay x) t p = t p := by
  simp only [Slot.all, List.foldl_cons, List.foldl_nil, firmwareOverlay, overlay, Slot.number]
  repeat rw [if_neg (by omega)]

end Sys2Proof.Machine
end

