-- ==== Sys2Proof/Tests/Slice0.lean ====
section
/-! SUPPORT. Tests: expected values are the spec's (30_encoding.md section 6, the examples of the transactions' own rules,
95_test_vectors.md), named at each group; and for every obligation with hypotheses a witness that meets them. -/

set_option Elab.async false

namespace Sys2Proof.Tests

open Sys2Proof Sys2Proof.Machine

/-! ## Helpers -/

/-- A tick step without accesses. -/
def idleStep : TickStep := ⟨[], none⟩

/-- A card without code whose devices only observe. -/
def plainCard (initOk suspends : Bool) : Card :=
  ⟨Vector.replicate 256 0, Vector.replicate 2048 0, initOk, suspends, .program [] .cur, .program [] .cur,
    .program [] .cur⟩

/-- The listeners of 95_test_vectors.md V5: on a write of `$0300`, add 1, then double. -/
def addOne : Listener := ⟨1, .address 0x0300, .write, BitVec.allOnes 256, none, .plain, .program [] (.add .cur (.lit 1))⟩

/-- See `addOne`. -/
def double : Listener := ⟨2, .address 0x0300, .write, BitVec.allOnes 256, none, .plain, .program [] (.mul .cur (.lit 2))⟩

/-- A listener that only observes `$0300`. -/
def watcher : Listener := ⟨3, .address 0x0300, .any, BitVec.allOnes 256, none, .plain, .program [] .cur⟩

/-- The listener of 95_test_vectors.md V62: on a read of `$0300` that fetches `$22`, answer `$FF`. -/
def onlyReads22 : Listener := ⟨3, .address 0x0300, .read, 1#256 <<< 0x22, none, .plain, .program [] (.lit 0xFF)⟩

/-- A listener on every kind of access of `$0310..$031F`. -/
def ranged : Listener :=
  ⟨4, .range 0x0310 0x031F, .any, BitVec.allOnes 256, none, .plain, .program [] (.lit 0x77)⟩

/-- A listener on register `$C005` that turns RAMWRT on (93_implementation_defined.md GK2). -/
def ramwrtOn : Listener :=
  ⟨0x100, .address 0xC005, .write, BitVec.allOnes 256, none, .plain, .program [.swset .ramwrt true] .cur⟩

/-- An environment: three listener records; a card in slot 4 that suspends with the CPU, one in slot 5 that fails. -/
def env : Environment where
  records := [addOne, double, watcher]
  cards := ((PerSlot.tabulate fun _ => plainCard true false).set .s4 (plainCard true true)).set .s5 (plainCard false false)
  romStream := List.replicate 0x4000 0
  ticks := ⟨idleStep, idleStep, PerSlot.tabulate fun _ => idleStep, []⟩

/-- The state after COLDRST with BLANK_FILL `$BB`, FLOAT_BUS `$FF`, CLOCK_DIVISOR 4. -/
def cold : State :=
  { State.reset with
    params := ⟨0xBB, 0xFF, 4, Switches.allOff, [], true⟩
    divcnt := 4
    env := env }

def running : State := { cold with run := .running }

def paused : State := { cold with run := .paused }

def unbooted : State := { cold with booted := false }

def dispatching : State := { cold with inDispatch := true }

/-- Slot 4 occupied, its card running. -/
def carded : State := { cold with occ := PerSlot.allOff.set .s4 true, cardrun := PerSlot.allOff.set .s4 true }

/-- With these listeners registered and indexed. -/
def listening (ls : List Listener) : State :=
  { cold with lreg := ls, pidx := pageIndexOf ls, ridx := registerIndexOf ls }

/-- With this byte stored in a cell. -/
def holding (b : Bank) (p o v : Byte) (s : State) : State := s.storeCell b p o v

/-- With these switches on and the tables of them. -/
def switched (sw : Switches) : State := { cold with sw := sw }.reconf

/-- The state a step ends in. -/
def result : Host.Outcome State Fault Refusal → State
  | .next s => s
  | .fault _ => State.reset
  | .refused _ => State.reset

/-- One transaction. -/
def after (i : Instr) (s : State) : State := result (exec i s)

/-! ## WellFormed: the one check, and an ill-formed term for each constructor it concerns -/

theorem test_bankrd_page_out_of_range_is_ill_formed : (Instr.bankrd .rom 0x30 0x00).wellFormed = false := by decide
theorem test_bankwr_page_out_of_range_is_ill_formed : (Instr.bankwr .main 0xC0 0x00 0x00).wellFormed = false := by decide
theorem test_blank_page_1_is_ill_formed : (Instr.bankrd .blank 0x01 0x00).wellFormed = false := by decide
theorem test_bankrd_last_page_is_well_formed : (Instr.bankrd (.exp .s7) 0x07 0xFF).wellFormed = true := by decide

/-! ## Decoding: words written out from 30_encoding.md tables E1 and E2 -/

theorem test_decode_accesses :
    decode 0x010004000000 = .ok (.rd .read false false 0x0400) ∧
    decode 0x0106C4000000 = .ok (.rd .execute true false 0xC400) ∧
    decode 0x02010400005A = .ok (.wr false false 0x0400 0x5A) ∧
    decode 0x020DC0B00000 = .ok (.wr true true 0xC0B0 0x00) ∧
    decode 0x0300FFFC0000 = .ok (.rdw .read false false 0xFFFC) ∧
    decode 0x040103F01234 = .ok (.wrw false false 0x03F0 0x1234) := by decide

theorem test_decode_switches :
    decode 0x100200000000 = .ok (.swget .lcram) ∧
    decode 0x110000000001 = .ok (.swset .ramrd true) ∧
    decode 0x110900000001 = .ok (.swset .intcxrom true) ∧
    decode 0x120800000000 = .ok (.swtgl .page2) ∧
    decode 0x130000000000 = .ok .swrst := by decide

theorem test_decode_map_and_banks :
    decode 0x200000000000 = .ok .reconf ∧
    decode 0x210000D00000 = .ok (.mapq .readTable 0xD0) ∧
    decode 0x210100D00000 = .ok (.mapq .writeTable 0xD0) ∧
    decode 0x220104000000 = .ok (.bankrd .aux 0x04 0x00) ∧
    decode 0x23022FFC0062 = .ok (.bankwr .rom 0x2F 0xFC 0x62) := by decide

theorem test_decode_cards_and_listeners :
    decode 0x300400000000 = .ok (.catt .s4) ∧
    decode 0x310300000000 = .ok (.cdet .s3) ∧
    decode 0x320600000000 = .ok (.crecfg .s6) ∧
    decode 0x330000000000 = .ok (.slotsel none) ∧
    decode 0x330400000000 = .ok (.slotsel (some .s4)) ∧
    decode 0x400000000007 = .ok (.ladd 0x0007) ∧
    decode 0x410000000007 = .ok (.lrem 0x0007) := by decide

theorem test_decode_scheduler_and_reset :
    decode 0x500000000000 = .ok .tick ∧ decode 0x510000000000 = .ok .pause ∧
    decode 0x520000000000 = .ok .resume ∧ decode 0x530000000000 = .ok .suspend ∧
    decode 0x540000000000 = .ok .start ∧ decode 0x550000000000 = .ok .stop ∧
    decode 0x560000000006 = .ok (.spdreq 6) ∧ decode 0x570000000006 = .ok (.spdrel 6) ∧
    decode 0x600000000000 = .ok .coldrst ∧ decode 0x610000000000 = .ok .warmrst ∧
    decode 0x620000000000 = .ok .romload := by decide

/-- 30_encoding.md R80 (a) to (f). -/
theorem test_ill_formed_words_are_refused_by_name :
    decode 0x000000000000 = .error .unassignedOpcode ∧
    decode 0x630000000000 = .error .unassignedOpcode ∧
    decode 0x010004000001 = .error .unusedBitSet ∧
    decode 0x011004000000 = .error .unusedBitSet ∧
    decode 0x010104000000 = .error .illegalKind ∧
    decode 0x020004000000 = .error .illegalKind ∧
    decode 0x100C00000000 = .error .noSuchSwitch ∧
    decode 0x221000000000 = .error .reservedBank ∧
    decode 0x221800000000 = .error .reservedBank ∧
    decode 0x220230000000 = .error .pageOutOfRange ∧
    decode 0x300000000000 = .error .slotZero := by decide

/-- 30_encoding.md R83: SWON, SWOFF, FETCH, PEEK, POKE are shorthand for these words. -/
theorem test_pseudo_transactions :
    encode (swOn .intcxrom) = 0x110900000001 ∧ encode (swOff .ramrd) = 0x110000000000 ∧
    encode (fetchAt 0xFFFC) = 0x0102FFFC0000 ∧ encode (peek 0x0400) = 0x010004000000 ∧
    encode (poke 0x0400 0x5A) = 0x02010400005A := by decide

theorem test_decode_of_a_table_word :
    decodeTableWord 48 0x23022FFC0062 = some (.bankwr .rom 0x2F 0xFC 0x62) ∧
    decodeTableWord 48 0x000000000000 = none := by decide

theorem test_placed_word_is_run : step (State.reset.withFetchWord 48 0x510000000000) =
    exec .pause State.reset := by rfl

/-! ## Single transactions. Sources in brackets. -/

/-- [42_access.md R121 example, 95_test_vectors.md V4] -/
theorem test_wr_stores_in_main :
    (after (.wr false false 0x0400 0x5A) cold).cell .main 0x04 0x00 = 0x5A := by decide

/-- [42_access.md R121: a write to ROM stores nothing, and the old byte is the read-mapped one] -/
theorem test_wr_to_rom_is_dropped :
    let s := holding .rom 0x00 0x00 0x4C cold
    (after (.wr false false 0xD000 0x77) s).mem = s.mem ∧
      (after (.wr false false 0xD000 0x77) s).response = ⟨.ok, 0x4C⟩ := by decide

/-- [42_access.md R120: a register without listeners reads FLOAT_BUS] -/
theorem test_rd_of_an_empty_register_is_the_floating_bus :
    (after (.rd .read false false 0xC0FF) cold).response = ⟨.ok, 0xFF⟩ := by decide

/-- [42_access.md R120: the blank page of an empty slot reads BLANK_FILL] -/
theorem test_rd_of_an_empty_slot_is_blank :
    (after (.rd .execute false false 0xC700) cold).response = ⟨.ok, 0xBB⟩ := by decide

/-- [42_access.md R122 example] -/
theorem test_rdw_is_little_endian :
    (after (.rdw .read false false 0xFFFC)
      (holding .rom 0x2F 0xFD 0xFA (holding .rom 0x2F 0xFC 0x62 cold))).response = ⟨.ok, 0xFA62⟩ := by decide

/-- [42_access.md R122: `$FFFF` wraps to `$0000`] -/
theorem test_rdw_wraps :
    (after (.rdw .read false false 0xFFFF)
      (holding .main 0x00 0x00 0x12 (holding .rom 0x2F 0xFF 0x34 cold))).response = ⟨.ok, 0x1234⟩ := by decide

/-- [42_access.md R123 example] -/
theorem test_wrw_is_little_endian :
    (after (.wrw false false 0x03F0 0x1234) cold).cell .main 0x03 0xF0 = 0x34 ∧
      (after (.wrw false false 0x03F0 0x1234) cold).cell .main 0x03 0xF1 = 0x12 := by decide

/-- [42_access.md R123: at `$BFFF` the high byte is dropped] -/
theorem test_wrw_into_the_io_hole_drops_the_high_byte :
    (after (.wrw false false 0xBFFF 0x1234) cold).mem = [(cellNumber .main 0xBF 0xFF, 0x34)] := by decide

/-- [40_switches.md R90 example] -/
theorem test_swget_reads_the_switch :
    (after (.swget .ramrd) cold).response = ⟨.ok, 0⟩ ∧
      (after (.swget .intc8rom) (switched (Switches.ofVector 0x800))).response = ⟨.ok, 1⟩ := by decide

/-- [40_switches.md R91 example] -/
theorem test_swset_ramrd :
    (after (.swset .ramrd true) cold).sw.vector = 0x001 ∧
      MapEntry.encode ((after (.swset .ramrd true) cold).readEntry 0x04) = 0x8104 ∧
      MapEntry.encode ((after (.swset .ramrd true) cold).writeEntry 0x04) = 0x8004 := by decide

/-- [40_switches.md R92 example] -/
theorem test_swtgl_page2 :
    (after (.swtgl .page2) cold).sw.vector = 0x100 ∧ (after (.swtgl .page2) cold).rt = cold.rt := by decide +kernel

/-- [40_switches.md R93 example] -/
theorem test_swrst_clears_the_vector :
    (after .swrst (switched (Switches.ofVector 0xA5F))).sw.vector = 0x000 := by decide

/-- [41_mmu.md R119] -/
theorem test_reconf_rebuilds_stale_tables :
    (after .reconf { cold with rt := [], wt := [] }).rt = cold.rt := by decide +kernel

/-- [41_mmu.md R116 example] -/
theorem test_mapq :
    (after (.mapq .readTable 0xD0) cold).response = ⟨.ok, 0x8200⟩ ∧
      (after (.mapq .writeTable 0xD0) cold).response = ⟨.ok, 0x0000⟩ := by decide

/-- [41_mmu.md R117: BLANK returns BLANK_FILL] -/
theorem test_bankrd_blank : (after (.bankrd .blank 0x00 0x7F) cold).response = ⟨.ok, 0xBB⟩ := by decide

/-- [41_mmu.md R118: ROM can be written through the port, also before the first reset] -/
theorem test_bankwr_rom :
    (after (.bankwr .rom 0x2F 0xFC 0x62) unbooted).mem = [(cellNumber .rom 0x2F 0xFC, 0x62)] := by decide

/-- [41_mmu.md R118: BLANK is refused] -/
theorem test_bankwr_blank_is_refused :
    (after (.bankwr .blank 0x00 0x00 0x62) cold).response = ⟨.refused, 0⟩ := by decide

/-- [44_cards.md R150, R154 to R156: the three ids of slot 3, in order] -/
theorem test_catt_registers_three_listeners :
    (after (.catt .s3) cold).lreg.map (·.id) = [0xFF30, 0xFF31, 0xFF32] ∧
      (after (.catt .s3) cold).occ.get .s3 = true := by decide

/-- [44_cards.md R157] -/
theorem test_catt_that_fails : (after (.catt .s5) cold).response = ⟨.ok, 0⟩ := by decide

/-- [44_cards.md R151] -/
theorem test_cdet_empties_the_slot :
    (after (.cdet .s4) carded).occ.get .s4 = false ∧ (after (.cdet .s4) carded).response = ⟨.ok, 0⟩ := by decide

/-- [44_cards.md R152: allowed while Running, which it restores] -/
theorem test_crecfg_while_running :
    (after (.crecfg .s4) { carded with run := .running }).run = .running ∧
      (after (.crecfg .s4) { carded with run := .running }).response = ⟨.ok, 1⟩ := by decide

/-- [44_cards.md R153, 30_encoding.md R76: (EXP_4, 2) is `0x9402`] -/
theorem test_slotsel_shows_the_expansion_rom :
    MapEntry.encode ((after (.slotsel (some .s4)) carded).readEntry 0xCA) = 0x9402 := by decide

/-- [43_dispatch.md R140: an already registered id keeps its place] -/
theorem test_ladd_twice :
    (after (.ladd 1) (listening [addOne, double])).lreg = [addOne, double] ∧
      (after (.ladd 2) (listening [addOne])).lreg = [addOne, double] := by decide

/-- [43_dispatch.md R141] -/
theorem test_lrem : (after (.lrem 1) (listening [addOne, double])).lreg = [double] := by decide

/-- [95_test_vectors.md V5: `$10` becomes `($10 + 1) * 2 = $22`] -/
theorem test_listeners_chain :
    (after (.wr false false 0x0300 0x10) (listening [addOne, double])).cell .main 0x03 0x00 = 0x22 := by decide

/-- [95_test_vectors.md V62: fetched `$22` passes the filter; kind EXECUTE does not match type READ] -/
theorem test_read_replacement :
    let s := holding .main 0x03 0x00 0x22 (listening [onlyReads22])
    (after (.rd .read false false 0x0300) s).response = ⟨.ok, 0x00FF⟩ ∧
      (after (.rd .execute false false 0x0300) s).response = ⟨.ok, 0x0022⟩ := by decide

/-- [42_access.md R121, R124: a bound register moves its switch and stores nothing] -/
theorem test_bound_register_moves_the_switch :
    (after (.wr false false 0xC005 0x00) (listening [ramwrtOn])).sw.vector = 0x002 ∧
      (after (.wr false false 0xC005 0x00) (listening [ramwrtOn])).mem = [] := by decide

/-- [45_scheduler.md R160] -/
theorem test_tick_counts_down :
    (after .tick running).divcnt = 3 ∧ (after .tick running).events = [.tick .cpu] := by decide

/-- [45_scheduler.md R160: the counter reloads and video is ticked] -/
theorem test_tick_reloads :
    (after .tick { running with divcnt := 1 }).divcnt = 4 ∧
      (after .tick { running with divcnt := 1 }).events = [.tick .cpu, .tick .video] := by decide

/-- [45_scheduler.md R161 example] -/
theorem test_pause : (after .pause running).response = ⟨.ok, 1⟩ ∧ (after .pause running).run = .paused := by decide

/-- [45_scheduler.md R162] -/
theorem test_resume :
    (after .resume { paused with suspset := PerSlot.allOff.set .s4 true }).cardrun.get .s4 = true ∧
      (after .resume cold).response = ⟨.refused, 0⟩ := by decide

/-- [45_scheduler.md R163] -/
theorem test_suspend_records_the_card :
    (after .suspend { carded with run := .running }).suspset = PerSlot.allOff.set .s4 true ∧
      (after .suspend { carded with run := .running }).cardrun.get .s4 = false := by decide

/-- [45_scheduler.md R164, R165] -/
theorem test_start_and_stop :
    (after .start cold).run = .running ∧ (after .start paused).response = ⟨.refused, 0⟩ ∧
      (after .stop paused).run = .stopped := by decide

/-- [45_scheduler.md R166, R167: occurrences are counted] -/
theorem test_speed_requests :
    (after (.spdreq 6) { cold with speedset := [6] }).speedset = [6, 6] ∧
      (after (.spdrel 6) { cold with speedset := [6, 6] }).speedset = [6] := by decide

/-- [70_reset_and_hazards.md R190] -/
theorem test_coldrst_from_running :
    (after .coldrst { running with asl := some .s4 }).run = .stopped ∧
      (after .coldrst { running with asl := some .s4 }).asl = none := by decide

/-- [70_reset_and_hazards.md R191] -/
theorem test_warmrst_keeps_cards_and_clears_the_latch :
    (after .warmrst { carded with asl := some .s4 }).asl = none ∧
      (after .warmrst { carded with asl := some .s4 }).occ = carded.occ := by decide

/-- [70_reset_and_hazards.md R192: a stream of another length is refused] -/
theorem test_romload_of_a_short_stream_is_refused :
    (after .romload { unbooted with env := { env with romStream := [0] } }).response = ⟨.refused, 0⟩ := by decide

/-- [70_reset_and_hazards.md R193, 95_test_vectors.md V10] -/
theorem test_reset_tables :
    MapEntry.encode (State.reset.readEntry 0xC3) = 0x8303 ∧ MapEntry.encode (State.reset.readEntry 0xC8) = 0x8800 ∧
      MapEntry.encode (State.reset.writeEntry 0xBF) = 0x80BF ∧ MapEntry.encode (State.reset.writeEntry 0xD0) = 0 := by
  decide

theorem test_reset_memory_is_canonical : Memory.wf State.reset.mem := by decide

/-! ## Witnesses: concrete states and operands that meet the hypotheses of each obligation, at the ends of the ranges -/

/-- Slot 4's firmware listener alone in the bucket of its window, and slot 4's expansion listener in the shared one. -/
def firmwareOnly : State := { carded with pidx := pageIndexOf [cardFirmwareListener .s4 (plainCard true true)] }

/-- See `firmwareOnly`. -/
def expansionOnly : State := { carded with pidx := pageIndexOf [cardExpansionListener .s4 (plainCard true true)] }

/-- This transaction presented, with nothing behind it. -/
def presented (w : TxnWord) (s : State) : State := { s with pending := [⟨w, env⟩] }

theorem witness_DecodeOfEncodeIsTheInstruction :
    (Instr.bankwr .lc2Aux 0x0F 0xFF 0xFF).wellFormed = true ∧ (Instr.slotsel none).wellFormed = true := by decide

theorem witness_EncodeOfDecodeIsTheWord :
    decode 0x2317070F00FF = .ok (.bankwr (.exp .s7) 0x07 0x0F 0xFF) := by decide

theorem witness_StepRunsTheDecodedTransaction :
    (presented 0x510000000000 running).pending = [⟨0x510000000000, env⟩] ∧
      decode 0x510000000000 = .ok .pause := ⟨rfl, by decide⟩

theorem witness_IllFormedWordIsRefused :
    (presented 0x100C00000000 cold).pending = [⟨0x100C00000000, env⟩] ∧ wordWellFormed 0x100C00000000 = false ∧
      wordWellFormed 0x220230000000 = false ∧ wordWellFormed 0x300000000000 = false ∧
      wordWellFormed 0x630000000000 = false := ⟨rfl, by decide, by decide, by decide, by decide⟩

theorem witness_NothingStopsAndARefusalChangesNothing :
    ∃ t, exec .resume cold = .next t ∧ t.response.status = .refused := ⟨_, rfl, by decide⟩

theorem witness_BeforeTheFirstResetOnlyThreeAreAccepted :
    unbooted.booted = false ∧ Instr.warmrst ≠ .coldrst ∧ Instr.warmrst ≠ .romload ∧
      (∀ b p o v, Instr.warmrst ≠ .bankwr b p o v) := ⟨rfl, by decide, by decide, fun _ _ _ _ => Instr.noConfusion⟩

theorem witness_InsideADispatchTheRestIsRefused :
    dispatching.inDispatch = true ∧ ∃ k e a, Instr.rd .read false true 0xFFFF = .rd k e true a :=
  ⟨rfl, _, _, _, rfl⟩

theorem witness_StructuralMutationNeedsQuiescence :
    running.inDispatch = false ∧ running.run = .running ∧ ∃ n, Instr.slotsel none = .slotsel n := ⟨rfl, rfl, _, rfl⟩

theorem witness_OwnPreconditionFailuresAreRefused :
    cold.env.record? 0xFFFF = none ∧ carded.occ.get .s4 = true ∧ carded.occ.get .s7 = false ∧ cold.run ≠ .running ∧
      cold.run = .stopped ∧ paused.run = .paused ∧
      ({ cold with env := { env with romStream := [] } } : State).env.romStream.length ≠ 0x4000 ∧
      paused.booted = true ∧ paused.run ≠ .stopped := by decide

theorem witness_ParametersAndBlankPageAreNeverWritten : ∃ t, exec .coldrst running = .next t := ⟨_, rfl⟩

theorem witness_OnlyTheListedTransactionsChangeCells :
    (∃ t, exec (.cdet .s4) carded = .next t) ∧
      (∀ e y a v, Instr.cdet .s4 ≠ .wr e y a v) ∧ (∀ e y a d, Instr.cdet .s4 ≠ .wrw e y a d) ∧
      (∀ b p o v, Instr.cdet .s4 ≠ .bankwr b p o v) ∧ (∀ n, Instr.cdet .s4 ≠ .catt n) ∧
      (∀ n, Instr.cdet .s4 ≠ .crecfg n) ∧ Instr.cdet .s4 ≠ .romload ∧ Instr.cdet .s4 ≠ .coldrst ∧
      Instr.cdet .s4 ≠ .tick := ⟨⟨_, rfl⟩, by simp⟩

theorem witness_OnlyCardAndListenerTransactionsChangeSlotsAndRegistry :
    (∃ t, exec .tick running = .next t) ∧ (∀ n, Instr.tick ≠ .catt n) ∧ (∀ n, Instr.tick ≠ .cdet n) ∧
      (∀ n, Instr.tick ≠ .crecfg n) ∧ Instr.tick ≠ .coldrst ∧ (∀ id, Instr.tick ≠ .ladd id) ∧
      (∀ id, Instr.tick ≠ .lrem id) := ⟨⟨_, rfl⟩, by simp⟩

theorem witness_OnlySwitchTransactionsResetsAndAccessesMoveSwitches :
    (∃ t, exec (.crecfg .s4) carded = .next t) ∧ (∀ k v, Instr.crecfg .s4 ≠ .swset k v) ∧
      (∀ k, Instr.crecfg .s4 ≠ .swtgl k) ∧ Instr.crecfg .s4 ≠ .swrst ∧ Instr.crecfg .s4 ≠ .coldrst ∧
      Instr.crecfg .s4 ≠ .warmrst ∧ (∀ k e y a, Instr.crecfg .s4 ≠ .rd k e y a) ∧
      (∀ e y a v, Instr.crecfg .s4 ≠ .wr e y a v) ∧ (∀ k e y a, Instr.crecfg .s4 ≠ .rdw k e y a) ∧
      (∀ e y a d, Instr.crecfg .s4 ≠ .wrw e y a d) ∧ Instr.crecfg .s4 ≠ .tick := ⟨⟨_, rfl⟩, by simp⟩

/-- ReconfigurationEqualsTheClosedForm, MapEntriesNeverDangle: the last page; pages where two rows of 41_mmu.md R113 meet;
a mapped write entry. -/
theorem witness_map_pages :
    255 < 256 ∧ closedRead ⟨Switches.allOff, PerSlot.allOff, none⟩ 0xC7 = some ⟨.blank, 0⟩ ∧
      closedRead ⟨Switches.allOff, PerSlot.allOff, none⟩ 0xD0 = some ⟨.rom, 0⟩ ∧
      tableEntry (writeTableOf ⟨Switches.allOff, PerSlot.allOff, none⟩) 0xBF = some ⟨.main, 0xBF⟩ ∧
      tableEntry (writeTableOf ⟨Switches.allOff, PerSlot.allOff, none⟩) 0xC0 = none := by decide

/-- ReconfRebuildsBothTables, MapqAnswersTheEntryWord, SwgetAnswersTheSwitch, SwrstRestoresTheDefaults, WarmResetState,
ColdResetState; with the next witnesses of their names LaddRegistersOnce, LremRemovesKeepingOrder, CattInstallsTheCard,
FailedCattChangesNothing: a stopped and a paused machine. -/
theorem witness_quiescent :
    cold.booted = true ∧ cold.inDispatch = false ∧ cold.run ≠ .running ∧
      paused.booted = true ∧ paused.inDispatch = false ∧ paused.run ≠ .running := by decide

/-- SwsetSetsOneSwitchAndRemaps, SwtglInvertsOneSwitchAndRemaps, SlotselMovesOnlyTheExpansionWindow: at top level in a
paused machine, and inside a dispatch. -/
theorem witness_quiescent_or_nested :
    paused.booted = true ∧ (paused.inDispatch = true ∨ paused.run ≠ .running) ∧
      dispatching.booted = true ∧ (dispatching.inDispatch = true ∨ dispatching.run ≠ .running) := by decide

/-- The second parts of SwtglInvertsOneSwitchAndRemaps and SlotselMovesOnlyTheExpansionWindow. -/
theorem witness_mapCurrent : cold.mapCurrent := ⟨by decide +kernel, by decide +kernel⟩

theorem witness_SlotselMovesOnlyTheExpansionWindow_pages :
    (0xC7 < 0xC8 ∨ 0xCF < 0xC7) ∧ (0xD0 < 0xC8 ∨ 0xCF < 0xD0) ∧
      (switched (Switches.ofVector 0x200)).sw.intcxrom = true := by decide

theorem witness_BankrdAnswersTheCell :
    carded.booted = true ∧ (0x07 : Byte).toNat < (Bank.exp .s4).pages ∧
      (∀ n, Bank.exp .s4 = .fw n ∨ Bank.exp .s4 = .exp n → carded.occ.get n = true) ∧
      ((Bank.exp .s7 = .fw .s7 ∨ Bank.exp .s7 = .exp .s7) ∧ carded.occ.get .s7 = false) := by
  refine ⟨rfl, by decide, fun n h => ?_, by decide⟩
  cases n <;> first | rfl | (exact absurd h (by decide))

theorem witness_BankwrStoresOneCell :
    unbooted.inDispatch = false ∧ (0xBF : Byte).toNat < Bank.main.pages ∧ Bank.main ≠ .blank := by decide

/-- AccessIsNeverRefusedForItsAddress, ReadWithoutListenersFetchesThroughTheMap, WriteWithoutListenersStoresOneCell: with
SYNC at top level, without SYNC inside a dispatch; no listener in the bucket at either end of the space and in the I/O
hole. -/
theorem witness_access :
    cold.booted = true ∧ (cold.inDispatch = false ∨ true = false) ∧ (dispatching.inDispatch = false ∨ false = false) ∧
      cold.bucket 0x0000 = [] ∧ cold.bucket 0xFFFF = [] ∧ cold.bucket 0xC0FF = [] ∧ pageOf 0xC0FF = 0xC0 := by decide

/-- WriteWithoutListenersStoresOneCell: a destination cell, a cell beside it, an address without one. -/
theorem witness_destination :
    isDestination (cold.writeEntry (pageOf 0xBFFF)) 0xBFFF .main 0xBF 0xFF ∧ Bank.main ≠ .blank ∧
      ¬ isDestination (cold.writeEntry (pageOf 0xBFFF)) 0xBFFF .main 0xBF 0xFE ∧
      ¬ isDestination (cold.writeEntry (pageOf 0xC000)) 0xC000 .main 0xC0 0x00 :=
  ⟨⟨by decide, by decide⟩, by decide, fun h => absurd h.2 (by decide), fun h => absurd h.1 (by decide)⟩

/-- With SYNC = 1 at top level of a running machine, with SYNC = 0 inside a dispatch. -/
theorem witness_AccessesTakeTheChainValueThroughTheSampledEntry :
    let s : State := { listening [addOne, double] with run := .running }
    s.booted = true ∧ (s.inDispatch = false ∨ true = false) ∧ s.bucket 0x0300 = [addOne, double] ∧
      (({ s with inDispatch := true } : State).inDispatch = false ∨ false = false) ∧
      isDestination (s.writeEntry (pageOf 0x0300)) 0x0300 .main 0x03 0x00 ∧ Bank.main ≠ .blank ∧
      ¬ isDestination (s.writeEntry (pageOf 0x0300)) 0x0300 .main 0x03 0x01 :=
  ⟨rfl, .inl rfl, by decide, .inr rfl, ⟨by decide, by decide⟩, by decide, fun h => absurd h.2 (by decide)⟩

/-- WordReadIsLittleEndian, WordWriteIsLittleEndian: both bytes in one page, and across the end of the address space; the
first parts with a listener filed for the low byte. -/
theorem witness_word :
    cold.bucket 0x03F0 = [] ∧ cold.bucket (0x03F0 + 1) = [] ∧ cold.bucket 0xFFFF = [] ∧ cold.bucket (0xFFFF + 1) = [] ∧
      (0xFFFF : Addr) + 1 = 0x0000 ∧
      isDestination (cold.writeEntry (pageOf (0xFFFF + 1))) (0xFFFF + 1) .main 0x00 0x00 ∧
      (listening [addOne]).booted = true ∧ (listening [addOne]).inDispatch = false ∧
      (listening [addOne]).bucket 0x0300 = [addOne] ∧
      ¬ isDestination ((listening [addOne]).writeEntry (pageOf 0x0300)) 0x0300 .main 0x03 0x02 ∧
      ¬ isDestination ((after (.wr false false 0x0300 0x34) (listening [addOne])).writeEntry (pageOf (0x0300 + 1)))
        (0x0300 + 1) .main 0x03 0x02 :=
  ⟨by decide, by decide, by decide, by decide, by decide, ⟨by decide, by decide⟩, rfl, rfl, by decide,
    fun h => absurd h.2 (by decide), fun h => absurd h.2 (by decide)⟩

theorem witness_EventFlagShowsAtMostInTheCardRecords :
    (∀ evt, ∃ t, exec (.rd .read evt true 0xFFFF) running = .next t) ∧
      (∀ evt, ∃ t, exec (.wr evt true 0x0000 0xFF) running = .next t) ∧
      (∀ evt, ∃ t, exec (.rdw .execute evt true 0xFFFF) running = .next t) ∧
      (∀ evt, ∃ t, exec (.wrw evt true 0xFFFF 0x1234) running = .next t) :=
  ⟨fun _ => ⟨_, rfl⟩, fun _ => ⟨_, rfl⟩, fun _ => ⟨_, rfl⟩, fun _ => ⟨_, rfl⟩⟩

theorem witness_WriteThenReadRoundTrip :
    cold.booted = true ∧ Bank.main ≠ .blank ∧ cold.writeEntry (pageOf 0xBFFF) = some ⟨.main, 0xBF⟩ ∧
      cold.readEntry (pageOf 0xBFFF) = some ⟨.main, 0xBF⟩ ∧ cold.bucket 0xBFFF = [] ∧ pageOf 0xBFFF ≠ 0xC0 := by decide

theorem witness_SyncAccessRestoresTheScheduler :
    (∃ t, exec (.wr false true 0x0300 0x10) { listening [addOne] with run := .running } = .next t) ∧
      (∃ t, exec (.rd .read false true 0x0300) { listening [addOne] with run := .running } = .next t) ∧
      (∃ t, exec (.rdw .read false true 0x02FF) { listening [addOne] with run := .running } = .next t) ∧
      (∃ t, exec (.wrw false true 0x0300 0x1234) { listening [addOne] with run := .running } = .next t) ∧
      ({ listening [addOne] with run := .running } : State).run = .running ∧
      ({ listening [addOne] with run := .running } : State).suspset = PerSlot.allOff :=
  ⟨⟨_, rfl⟩, ⟨_, rfl⟩, ⟨_, rfl⟩, ⟨_, rfl⟩, rfl, rfl⟩

/-- Both run; the first is skipped (its type filter); the second is skipped (its value filter). -/
theorem witness_ListenersRunInRegistrationOrder :
    (listening [addOne, double]).bucket 0x0300 = [addOne, double] ∧
      (listening [addOne, onlyReads22]).bucket 0x0300 = [addOne, onlyReads22] ∧
      addOne.role = .plain ∧ double.role = .plain ∧ onlyReads22.role = .plain ∧
      addOne.device = .program [] (.add .cur (.lit 1)) ∧ double.device = .program [] (.mul .cur (.lit 2)) ∧
      onlyReads22.device = .program [] (.lit 0xFF) ∧
      ¬ skipped addOne .write 0x0300 0x10 ∧ ¬ skipped double .write 0x0300 0x11 ∧
      skipped addOne .read 0x0300 0x22 ∧ ¬ skipped onlyReads22 .read 0x0300 0x22 ∧
      skipped onlyReads22 .read 0x0300 0x23 ∧ skipped onlyReads22 .write 0x0300 0x22 := by
  refine ⟨by decide, by decide, rfl, rfl, rfl, rfl, rfl, rfl, ?_⟩
  simp [skipped, addOne, double, onlyReads22]

/-- ListenersRunInRegistrationOrder, its second part: scopes at their bounds; a bucket whose one listener is skipped. -/
theorem witness_skipped :
    skipped ranged .read 0x030F 0x00 ∧ ¬ skipped ranged .read 0x0310 0x00 ∧ ¬ skipped ranged .write 0x031F 0xFF ∧
      skipped ranged .write 0x0320 0xFF ∧ skipped addOne .write 0x0301 0x10 ∧
      ¬ skipped { ranged with scope := .any } .execute 0xFFFF 0x00 ∧
      (listening [ranged]).bucket 0x0320 = [ranged] ∧ (listening [ranged]).bucket 0x0320 ≠ [] := by
  refine ⟨?_, ?_, ?_, ?_, ?_, ?_, by decide, by decide⟩ <;> simp [skipped, ranged, addOne]

/-- A page and a register; a listener filed under its page and not covering the address. -/
theorem witness_IndexMissesNoListener :
    (listening [addOne, ramwrtOn]).indexCurrent ∧ addOne ∈ (listening [addOne, ramwrtOn]).lreg ∧
      addOne.scope.covers 0x0300 = true ∧ ramwrtOn.scope.covers 0xC005 = true ∧ pageOf 0xC005 = 0xC0 ∧
      addOne.scope.covers 0x0301 = false ∧ (listening [addOne, ramwrtOn]).bucket 0x0301 = [addOne] ∧
      (listening [addOne, ramwrtOn]).bucket 0xC004 = [] :=
  ⟨⟨rfl, rfl⟩, by decide, by decide, by decide, by decide, by decide, by decide, by decide⟩

theorem witness_ObserversNeverChangeAnAccess :
    (∀ l ∈ (listening [watcher]).bucket 0x0300, isObserver l = true) ∧ (listening [watcher]).bucket 0x0300 ≠ [] ∧
      isDestination ((listening [watcher]).writeEntry (pageOf 0x0300)) 0x0300 .main 0x03 0x00 :=
  ⟨by decide, by decide, by decide, by decide⟩

theorem witness_LaddRegistersOnce : cold.env.record? 1 = some addOne := by decide

theorem witness_LremRemovesKeepingOrder : ∀ l ∈ (listening [addOne, double]).lreg, l.id ≠ 3 := by decide

theorem witness_NestedOperationsActAsTheirTransactions :
    dispatching.inDispatch = true ∧ ∃ b p o, Instr.bankrd .blank 0x00 0xFF = .bankrd b p o := ⟨rfl, _, _, _, rfl⟩

theorem witness_CattInstallsTheCard :
    cold.occ.get .s4 = false ∧ (cold.env.cards.get .s4).initOk = true ∧ 0 < 256 ∧ 255 < 256 ∧ 2047 < 2048 ∧
      Bank.fw .s7 ≠ .fw .s4 ∧ Bank.exp .s7 ≠ .exp .s4 := by decide

theorem witness_FailedCattChangesNothing :
    cold.occ.get .s5 = false ∧ (cold.env.cards.get .s5).initOk = false := by decide

/-- CdetRemovesTheCard. -/
theorem witness_card_detach :
    carded.booted = true ∧ carded.inDispatch = false ∧ carded.run ≠ .running ∧ carded.occ.get .s4 = true := by decide

/-- A card that initialises, in a running machine; one that fails, in slot 5. -/
theorem witness_CrecfgDetachesThenAttaches :
    ({ cold with occ := PerSlot.allOff.set .s5 true } : State).occ.get .s5 = true ∧
      (cold.env.cards.get .s5).initOk = false ∧ cold.booted = true ∧ cold.inDispatch = false ∧
    ({ carded with run := .running } : State).occ.get .s4 = true ∧ (carded.env.cards.get .s4).initOk = true ∧
      ({ carded with run := .running } : State).run = .running := by decide

theorem witness_FirmwareReadSetsTheLatch :
    pageOf 0xC4FF = 0xC0 + Slot.s4.number ∧ firmwareOnly.booted = true ∧
      firmwareOnly.bucket 0xC4FF = [cardFirmwareListener .s4 (plainCard true true)] ∧
      (plainCard true true).firmware = .program [] .cur := ⟨by decide, rfl, by decide +kernel, rfl⟩

theorem witness_ExpansionListenerIsGated :
    0xC8 ≤ pageOf 0xC800 ∧ pageOf 0xCFFF ≤ 0xCF ∧ expansionOnly.booted = true ∧
      expansionOnly.bucket 0xC800 = [cardExpansionListener .s4 (plainCard true true)] ∧
      expansionOnly.bucket 0xCFFF = [cardExpansionListener .s4 (plainCard true true)] ∧
      (expansionOnly.asl ≠ some .s4 ∨ expansionOnly.sw.intc8rom = true) ∧
      ({ expansionOnly with asl := some .s4 } : State).asl = some .s4 ∧
      ({ expansionOnly with asl := some .s4 } : State).sw.intc8rom = false :=
  ⟨by decide, by decide, rfl, by decide +kernel, by decide +kernel, .inl (by decide), rfl, by decide⟩

/-- A machine about to expire whose CPU step writes and faults before its second access, and whose video step reads. -/
def ticking : State :=
  { running with
    divcnt := 1
    env := { env with ticks := ⟨⟨[.wr false 0x0400 0x5A, .wr false 0x0401 0x5B], some 1⟩,
      ⟨[.rd .read false 0x0400], none⟩, PerSlot.tabulate fun _ => idleStep, [idleStep]⟩ } }

/-- A TICK with accesses, the write kept before the fault (45_scheduler.md R168) and seen by video. -/
theorem witness_ticking :
    ticking.booted = true ∧ ticking.inDispatch = false ∧ ticking.run = .running ∧ ticking.divcnt ≤ 1 ∧
      (ticksAtPort ticking.tickOrder ticking).1.mem = [(cellNumber .main 0x04 0x00, 0x5A)] ∧
      ((ticksAtPort ticking.tickOrder ticking).2.filter fun e => e != .tick .cpu).tail =
        [.tick .video, .access (.rd .read false 0x0400) 0x5A, .tick (.misc 0)] := by decide

theorem witness_TickCountsDownAndTicksDevicesOnExpiry :
    running.booted = true ∧ running.inDispatch = false ∧ running.run = .running ∧ running.divcnt = 4 ∧
      ({ running with divcnt := 1 } : State).divcnt ≤ 1 ∧ running.env.ticks.cpu.kept = [] ∧
      running.env.ticks.video.kept = [] ∧ (∀ p ∈ running.env.ticks.misc, p.kept = []) ∧
      (running.env.ticks.cards.get .s7).kept = [] := by decide

/-- PauseAnswersWhetherRunning, ResumeRestartsTheRecordedCards, SuspendRecordsTheSubset, StartAndStopMoveRun,
SpeedRequestsCountOccurrences. -/
theorem witness_scheduler :
    running.booted = true ∧ running.inDispatch = false ∧ running.run = .running ∧ running.run ≠ .paused ∧
      paused.booted = true ∧ paused.inDispatch = false ∧ paused.run = .paused ∧ paused.run ≠ .running := by decide

theorem witness_ColdResetTables :
    (∃ t, exec .coldrst running = .next t) ∧ running.params.swDefault = Switches.allOff ∧ 0xC0 ≤ 0xC2 ∧ 0xC2 ≤ 0xCF ∧
      0xC2 ≠ 0xC3 ∧ 0xBF ≤ 0xBF ∧ 0xD0 ≤ 0xFF := ⟨⟨_, rfl⟩, by decide⟩

theorem witness_RomloadPlacesTheStream :
    unbooted.inDispatch = false ∧ unbooted.env.romStream.length = 0x4000 ∧
      (unbooted.booted = false ∨ unbooted.run = .stopped) ∧ 0x0FFF < 0x1000 ∧ 0x1000 ≤ 0x1000 ∧
      0x3FFF < unbooted.env.romStream.length := by decide +kernel

theorem witness_EveryStepKeepsTheInvariant :
    (presented 0x500000000000 running).Inv ∧ ∃ t, step (presented 0x500000000000 running) = .next t :=
  ⟨⟨⟨by decide, fun c hc => absurd hc (by decide +revert)⟩, rfl, by decide,
      fun _ => ⟨by decide +kernel, by decide +kernel⟩, fun _ => ⟨by decide +kernel, by decide +kernel⟩,
      fun _ => ⟨by decide, by decide⟩, fun _ n => by cases n <;> decide⟩, _, rfl⟩

end Sys2Proof.Tests
end

section
/-! Proofs of the statements about the state (10_state.md): the listener index, the map in closed form, what each
transaction's effect leaves alone, and the reset state. -/

namespace Sys2Proof.Machine

/-! ## The listener index (10_state.md R24, 43_dispatch.md R139) -/

/-- A bucket of an index rebuilt from the registry, for each of the 256 pages or registers. -/
theorem bucketAt_map_range (f : Nat → List Listener) {i : Nat} (h : i < 256) :
    bucketAt ((List.range 256).map f) i = f i := by
  simp [bucketAt, h]

theorem pageOf_lt (addr : Addr) : pageOf addr < 256 := by
  have := addr.isLt
  simp only [pageOf]; omega

/-- An address is its page and its offset (00_scope.md R6). -/
theorem toNat_eq_page_offset (addr : Addr) : addr.toNat = 256 * pageOf addr + (offsetOf addr).toNat := by
  simp only [pageOf, offsetOf, BitVec.toNat_setWidth]; omega

/-- In the I/O hole a listener is filed under a register exactly when its scope takes in the register's address. -/
theorem filedAtRegister_iff (l : Listener) {addr : Addr} (h : pageOf addr = ioPage) :
    filedAtRegister l (offsetOf addr).toNat = true ↔ l.scope.lo ≤ addr.toNat ∧ addr.toNat ≤ l.scope.hi := by
  have ha := toNat_eq_page_offset addr
  have ho := (offsetOf addr).isLt
  simp only [ioPage] at h
  simp only [filedAtRegister, decide_eq_true_eq]
  omega

theorem filedAtPage_iff (l : Listener) (p : Nat) :
    filedAtPage l p = true ↔ l.scope.lo / 256 ≤ p ∧ p ≤ l.scope.hi / 256 := decide_eq_true_iff

/-- Whether a listener is filed where an access of `addr` looks: under the register in the I/O hole, else under the
page. -/
def filedFor (addr : Addr) (l : Listener) : Bool :=
  if pageOf addr = ioPage then filedAtRegister l (offsetOf addr).toNat else filedAtPage l (pageOf addr)

/-- With the index current, a bucket is the registry, in its order, without the listeners not filed there. -/
theorem bucket_eq_filter {s : State} (h : s.indexCurrent) (addr : Addr) :
    s.bucket addr = s.lreg.filter (filedFor addr) := by
  obtain ⟨hp, hr⟩ := h
  rw [State.bucket]
  split
  · next hio =>
    rw [hr, registerIndexOf, bucketAt_map_range _ (offsetOf addr).isLt]
    exact List.filter_congr fun l _ => (if_pos hio).symm
  · next hio =>
    rw [hp, pageIndexOf, bucketAt_map_range _ (pageOf_lt addr)]
    exact List.filter_congr fun l _ => (if_neg hio).symm

/-- R139's filing condition for an address, to the letter. -/
theorem filedFor_iff (addr : Addr) (l : Listener) :
    filedFor addr l = true ↔
      if pageOf addr = 0xC0 then l.scope.lo ≤ addr.toNat ∧ addr.toNat ≤ l.scope.hi
      else l.scope.lo / 256 ≤ pageOf addr ∧ pageOf addr ≤ l.scope.hi / 256 := by
  rw [filedFor, ioPage]
  by_cases h : pageOf addr = 0xC0
  · rw [if_pos h, if_pos h]; exact filedAtRegister_iff l h
  · rw [if_neg h, if_neg h]; exact filedAtPage_iff l _

/-- A scope that takes in an address is filed for it. -/
theorem filedFor_of_covers {addr : Addr} {l : Listener} (h : l.scope.covers addr = true) : filedFor addr l = true := by
  rw [Scope.covers, decide_eq_true_eq] at h
  rw [filedFor_iff]
  split
  · exact h
  · exact ⟨Nat.div_le_div_right h.1, Nat.div_le_div_right h.2⟩

/-- Settles O37: with the index current a bucket is the registry filtered by R139's condition. -/
theorem indexMissesNoListener : Obligations.IndexMissesNoListener := by
  intro s addr h
  rw [bucket_eq_filter h addr]
  refine ⟨List.filter_sublist, fun l => ?_, fun l hl hc => List.mem_filter.mpr ⟨hl, filedFor_of_covers hc⟩⟩
  rw [List.mem_filter, filedFor_iff]

/-! ## The closed form of the map (41_mmu.md R113), step by step and page range by page range -/

/-- The language-card overlay of steps 4 and 5 on `$D0..$FF` is R113's entry. -/
theorem lcOverlay_in (sw : Switches) (t : Nat → MapEntry) {p : Nat} (h : 0xD0 ≤ p ∧ p ≤ 0xFF) :
    lcOverlay sw t p = closedLc sw p := by
  cases h1 : sw.lcbank1 <;> by_cases h2 : p ≤ 0xDF <;>
    simp [lcOverlay, closedLc, overlay, entry, lcBank, lc2Bank, h1, h2, h]

theorem lcOverlay_out (sw : Switches) (t : Nat → MapEntry) {p : Nat} (h : p < 0xD0) : lcOverlay sw t p = t p := by
  rw [lcOverlay]
  split
  · exact overlay_out _ _ (by omega)
  · rw [overlay_out _ _ (by omega), overlay_out _ _ (by omega)]

/-- The tables after steps 1 to 5 (R102 to R107). -/
def baseMap (x : MapInputs) : MapDraft := mapStep5 x (mapStep4 x (mapStep3 (mapStep2 (mapStep1 x mapPreclear))))

theorem baseMap_rt (x : MapInputs) (p : Nat) :
    (baseMap x).rt p =
      if x.sw.lcram then lcOverlay x.sw (mapStep2 (mapStep1 x mapPreclear)).rt p
      else (mapStep2 (mapStep1 x mapPreclear)).rt p := by
  simp only [baseMap, mapStep5, mapStep4]
  split <;> split <;> rfl

theorem baseMap_wt (x : MapInputs) (p : Nat) :
    (baseMap x).wt p =
      if x.sw.lcwrite then lcOverlay x.sw (mapStep3 (mapStep1 x mapPreclear)).wt p
      else overlay 0xD0 0xFF (fun _ => none) (mapStep3 (mapStep1 x mapPreclear)).wt p := by
  simp only [baseMap, mapStep5, mapStep4]
  split <;> split <;> rfl

theorem baseMap_rt_ram (x : MapInputs) {p : Nat} (h : p ≤ 0xBF) : (baseMap x).rt p = entry (auxIf x.sw.ramrd) p := by
  rw [baseMap_rt, lcOverlay_out _ _ (by omega), ite_self]
  simp only [mapStep2, mapStep1]
  rw [overlay_out _ _ (by omega), overlay_in _ _ (by omega)]

theorem baseMap_wt_low (x : MapInputs) {p : Nat} (h : p < 0xD0) :
    (baseMap x).wt p = if p ≤ 0xBF then entry (auxIf x.sw.ramwrt) p else none := by
  rw [baseMap_wt, lcOverlay_out _ _ (by omega), overlay_out _ _ (by omega), ite_self]
  simp only [mapStep3, mapStep1]
  split
  · rw [overlay_out _ _ (by omega), overlay_in _ _ (by omega)]
  · by_cases hio : p = 0xC0
    · rw [overlay_in _ _ (by omega)]
    · rw [overlay_out _ _ (by omega), overlay_out _ _ (by omega), mapPreclear]

/-- The language card on `$D0..$FF`, or ROM. -/
theorem baseMap_rt_high (x : MapInputs) {p : Nat} (h : 0xD0 ≤ p ∧ p ≤ 0xFF) :
    (baseMap x).rt p = if x.sw.lcram then closedLc x.sw p else entry .rom (p - 0xD0) := by
  rw [baseMap_rt, lcOverlay_in _ _ h]
  simp only [mapStep2]
  rw [overlay_in _ _ h]

/-- The language card on `$D0..$FF`, or nothing. -/
theorem baseMap_wt_high (x : MapInputs) {p : Nat} (h : 0xD0 ≤ p ∧ p ≤ 0xFF) :
    (baseMap x).wt p = if x.sw.lcwrite then closedLc x.sw p else none := by
  rw [baseMap_wt, lcOverlay_in _ _ h, overlay_in _ _ h]

/-- The 80-column-store override of one table, shared by both tables of step 6 (R108). -/
def store80Overlay (sw : Switches) (t : Nat → MapEntry) : Nat → MapEntry :=
  let f := fun p => entry (auxIf sw.page2) p
  if sw.store80 then
    if sw.hires then overlay 0x20 0x3F f (overlay 0x04 0x07 f t) else overlay 0x04 0x07 f t
  else t

theorem mapStep6_eq (x : MapInputs) (d : MapDraft) :
    mapStep6 x d = ⟨store80Overlay x.sw d.rt, store80Overlay x.sw d.wt⟩ := by
  simp only [mapStep6, store80Overlay]
  split
  · split <;> rfl
  · rfl

theorem store80Overlay_out (sw : Switches) (t : Nat → MapEntry) {p : Nat} (h : 0x40 ≤ p) :
    store80Overlay sw t p = t p := by
  simp only [store80Overlay]
  split
  · split <;> simp (disch := omega) only [overlay_out]
  · rfl

theorem closedRam_eq (sw : Switches) (select : Bool) (p : Nat) :
    closedRam sw select p =
      if (0x04 ≤ p ∧ p ≤ 0x07 ∧ sw.store80 = true) ∨ (0x20 ≤ p ∧ p ≤ 0x3F ∧ sw.store80 = true ∧ sw.hires = true) then
        entry (auxIf sw.page2) p
      else entry (auxIf select) p := rfl

/-- The override turns `X ? AUX : MAIN` of step 1 into R113's choice. -/
theorem store80Overlay_ram (sw : Switches) (t : Nat → MapEntry) (select : Bool) {p : Nat}
    (h : t p = entry (auxIf select) p) : store80Overlay sw t p = closedRam sw select p := by
  rw [closedRam_eq, ← h]
  cases h1 : sw.store80 with
  | false => simp [store80Overlay, h1]
  | true =>
    cases h2 : sw.hires with
    | false => simp [store80Overlay, overlay, h1, h2]
    | true =>
      simp only [store80Overlay, overlay, h1, h2, if_true, and_true]
      grind

/-- Step 8 (R110) touches no page of the read table off `$C1..$CF`. -/
theorem mapStep8_out (x : MapInputs) (d : MapDraft) {p : Nat} (h : p < 0xC1 ∨ 0xCF < p) :
    (mapStep8 x d).rt p = d.rt p := by
  simp only [mapStep8]
  split
  · simp (disch := omega) only [overlay_out]
  · split <;> split <;> simp (disch := omega) only [overlay_out, firmwareOverlays_out]

/-- What the slot branch shows in the expansion window is R113's entry, with both motherboard switches off. -/
theorem expansionEntry_eq_closedExpansion (x : MapInputs) (hx : x.sw.intcxrom = false) (h8 : x.sw.intc8rom = false)
    (p : Nat) : expansionEntry x p = closedExpansion x p := by
  rw [expansionEntry, closedExpansion, if_neg (by simp only [hx, h8, Bool.false_eq_true, or_self, not_false_eq_true])]
  cases x.asl with
  | none => rfl
  | some n => rfl

/-- The expansion window is the motherboard's ROM under INTCXROM or INTC8ROM, else the active slot's (R110). -/
theorem mapStep8_expansion (x : MapInputs) (d : MapDraft) {p : Nat} (h : 0xC8 ≤ p ∧ p ≤ 0xCF) :
    (mapStep8 x d).rt p = closedExpansion x p := by
  cases hx : x.sw.intcxrom with
  | true =>
    simp only [mapStep8, hx, if_true]
    rw [overlay_in _ _ (by omega), closedExpansion, if_pos (.inl hx)]
    rfl
  | false =>
    cases h8 : x.sw.intc8rom with
    | true =>
      simp only [mapStep8, hx, h8, if_true, Bool.false_eq_true, if_false]
      rw [overlay_in _ _ h, closedExpansion, if_pos (.inr h8)]
      rfl
    | false =>
      rw [← expansionEntry_eq_closedExpansion x hx h8]
      simp only [mapStep8, hx, h8, Bool.false_eq_true, if_false]
      split
      · exact overlay_in _ _ h
      · rw [overlay_out _ _ (by omega), overlay_in _ _ h]

/-- Below the expansion window the slot branch of step 8 is its firmware windows, `$C3` under SLOTC3ROM (R110). -/
theorem mapStep8_slots (x : MapInputs) (d : MapDraft) (hx : x.sw.intcxrom = false) {p : Nat} (h : p < 0xC8) :
    (mapStep8 x d).rt p =
      if p = 0xC3 ∧ x.sw.slotc3rom = false then entry .crom 3 else Slot.all.foldl (firmwareOverlay x) d.rt p := by
  cases h2 : x.sw.intc8rom <;> cases h3 : x.sw.slotc3rom <;> by_cases h4 : p = 0xC3 <;>
    simp (disch := omega) [mapStep8, hx, h2, h3, h4, overlay_out, overlay_in]

theorem mapStep8_firmware (x : MapInputs) (d : MapDraft) (n : Slot) :
    (mapStep8 x d).rt (0xC0 + n.number) = closedFirmware x n := by
  have hn := n.number_bounds
  cases hx : x.sw.intcxrom with
  | true => simp (disch := omega) [mapStep8, closedFirmware, hx, overlay_in, entry]
  | false =>
    have h3 : 0xC0 + n.number = 0xC3 ↔ n = .s3 := by cases n <;> decide
    rw [mapStep8_slots x d hx (by omega), firmwareOverlays_in]
    simp only [h3]
    split
    · next h => rw [closedFirmware, if_pos (.inr h), h.1]; rfl
    · next h => rw [closedFirmware, if_neg (not_or.mpr ⟨by simp [hx], h⟩)]; rfl

theorem exists_slot_number {k : Nat} (h : 1 ≤ k ∧ k ≤ 7) : ∃ n : Slot, n.number = k := by
  have key : ∀ k < 8, 1 ≤ k → ∃ n ∈ Slot.all, n.number = k := by decide
  obtain ⟨n, -, hn⟩ := key k (by omega) h.1
  exact ⟨n, hn⟩

/-- Off `$C0` step 9 (R111) leaves the read table of step 8,. -/
theorem reconfigure_rt_out (x : MapInputs) {p : Nat} (h : p ≠ 0xC0) :
    (reconfigure x).rt p = (mapStep8 x (mapStep7 x (mapStep6 x (baseMap x)))).rt p :=
  if_neg (by omega)

/-- Row by row of R113: zero page and stack, RAM, the I/O hole, the firmware windows, the expansion window,
`$D0..$FF`. -/
theorem reconfigure_rt_eq_closedRead (x : MapInputs) {p : Nat} (h : p < 256) :
    (reconfigure x).rt p = closedRead x p := by
  rw [closedRead]
  split
  · rw [reconfigure_rt_out x (by omega), mapStep8_out _ _ (by omega)]
    simp only [mapStep7]
    rw [overlay_in _ _ (by omega)]
    rfl
  split
  · next hram =>
    rw [reconfigure_rt_out x (by omega), mapStep8_out _ _ (by omega), mapStep6_eq]
    simp only [mapStep7]
    rw [overlay_out _ _ (by omega)]
    exact store80Overlay_ram _ _ _ (baseMap_rt_ram x hram)
  split
  · next hio => rw [hio]; rfl
  rw [reconfigure_rt_out x (by omega)]
  split
  · obtain ⟨n, hn⟩ := exists_slot_number (k := p - 0xC0) (by omega)
    obtain rfl : p = 0xC0 + n.number := by omega
    rw [mapStep8_firmware, Nat.add_sub_cancel_left, Slot.ofNumber_number]
  split
  · exact mapStep8_expansion x _ (by omega)
  · rw [mapStep8_out _ _ (by omega), mapStep6_eq]
    simp only [mapStep7]
    rw [overlay_out _ _ (by omega), store80Overlay_out _ _ (by omega)]
    exact baseMap_rt_high x (by omega)

/-- Row by row of R113: zero page and stack, RAM, `$C0..$CF`, `$D0..$FF`. -/
theorem reconfigure_wt_eq_closedWrite (x : MapInputs) {p : Nat} (h : p < 256) :
    (reconfigure x).wt p = closedWrite x p := by
  rw [reconfigure_wt, mapStep6_eq, closedWrite]
  simp only [mapStep7]
  split
  · rw [overlay_in _ _ (by omega)]
    rfl
  rw [overlay_out _ _ (by omega)]
  split
  · next hram => exact store80Overlay_ram _ _ _ ((baseMap_wt_low x (by omega)).trans (if_pos hram))
  rw [store80Overlay_out _ _ (by omega)]
  split
  · next hram _ => exact (baseMap_wt_low x (by omega)).trans (if_neg hram)
  · exact baseMap_wt_high x (by omega)

theorem readTableOf_eq_closed (x : MapInputs) : readTableOf x = closedReadTable x :=
  List.map_congr_left fun _ hp => reconfigure_rt_eq_closedRead x (List.mem_range.mp hp)

theorem writeTableOf_eq_closed (x : MapInputs) : writeTableOf x = closedWriteTable x :=
  List.map_congr_left fun _ hp => reconfigure_wt_eq_closedWrite x (List.mem_range.mp hp)

/-! ## The effect of every transaction -/

/-- What each transaction does when it is accepted: its new state and its RDATA. -/
def effect : Instr → State → State × Word16
  | .rd kind evt sync addr => rdBody kind evt sync addr
  | .wr evt sync addr value => wrBody evt sync addr value
  | .rdw kind evt sync addr => rdwBody kind evt sync addr
  | .wrw evt sync addr data => wrwBody evt sync addr data
  | .swget k => swgetBody k
  | .swset k v => swsetBody k v
  | .swtgl k => swtglBody k
  | .swrst => swrstBody
  | .reconf => fun s => (s.reconf, 0)
  | .mapq tbl page => mapqBody tbl page
  | .bankrd b page off => bankrdBody b page off
  | .bankwr b page off v => bankwrBody b page off v
  | .catt n => cattBody n
  | .cdet n => cdetBody n
  | .crecfg n => crecfgBody n
  | .slotsel n => slotselBody n
  | .ladd id => laddBody id
  | .lrem id => lremBody id
  | .tick => tickBody
  | .pause => fun s => (s.pauseRun, bit16 s.wasRunning)
  | .resume => fun s => (s.resumeRun, 0)
  | .suspend => fun s => (s.suspendRun, bit16 s.wasRunning)
  | .start => startBody
  | .stop => stopBody
  | .spdreq id => spdreqBody id
  | .spdrel id => spdrelBody id
  | .coldrst => coldrstBody
  | .warmrst => warmrstBody
  | .romload => romloadBody

/-- Every transaction at the port is its effect, carried out by `transact`. -/
theorem exec_eq_effect (i : Instr) (s : State) : exec i s = transact i (effect i) s := by cases i <;> rfl

/-- What neither the outputs nor the transaction's effect touches is after the transaction as it was, accepted or
refused. -/
theorem exec_keeps {α : Type} (f : State → α) (hc : ∀ s : State, f s.clearEvents = f s)
    (hr : ∀ (s : State) r, f (s.respond r) = f s) {i : Instr} {s t : State}
    (he : ∀ s, f (effect i s).1 = f s) (h : exec i s = .next t) : f t = f s := by
  rw [exec_eq_effect] at h
  rcases transact_cases h with ⟨-, ht⟩ | ⟨-, ht⟩
  · cases ht
    rw [hr, he, hc]
  · cases ht
    rw [hr, hc]

/-! ## What every transaction but those on slots and listeners leaves alone -/

/-- The slots, the registry and its index, and what the outside holds, are as they were. No access and no tick step
changes them, whatever their listeners do (10_state.md R20, R23). -/
structure RegistryFrame (s t : State) : Prop where
  occ : t.occ = s.occ
  lreg : t.lreg = s.lreg
  pidx : t.pidx = s.pidx
  ridx : t.ridx = s.ridx
  booted : t.booted = s.booted
  pending : t.pending = s.pending
  params : t.params = s.params
  env : t.env = s.env
  ramEpoch : t.ramEpoch = s.ramEpoch

theorem RegistryFrame.refl (s : State) : RegistryFrame s s := by constructor <;> rfl

theorem RegistryFrame.trans {s t u : State} (h : RegistryFrame s t) (k : RegistryFrame t u) : RegistryFrame s u :=
  ⟨k.occ.trans h.occ, k.lreg.trans h.lreg, k.pidx.trans h.pidx, k.ridx.trans h.ridx, k.booted.trans h.booted,
    k.pending.trans h.pending, k.params.trans h.params, k.env.trans h.env, k.ramEpoch.trans h.ramEpoch⟩

theorem ChainFrame.registry {s t : State} (h : ChainFrame s t) : RegistryFrame s t :=
  ⟨h.occ, h.lreg, h.pidx, h.ridx, h.booted, h.pending, h.params, h.env, h.ramEpoch⟩

theorem AccessFrame.registry {s t : State} (h : AccessFrame s t) : RegistryFrame s t :=
  ⟨h.occ, h.lreg, h.pidx, h.ridx, h.booted, h.pending, h.params, h.env, h.ramEpoch⟩

theorem SchedulerFrame.registry {s t : State} (h : SchedulerFrame s t) : RegistryFrame s t :=
  ⟨h.occ, h.lreg, h.pidx, h.ridx, h.booted, h.pending, h.params, h.env, h.ramEpoch⟩

section
variable {s t : State}

theorem RegistryFrame.log (h : RegistryFrame s t) (e : Event) : RegistryFrame s (t.log e) :=
  h.trans (by constructor <;> rfl)

theorem RegistryFrame.setDispatch (h : RegistryFrame s t) (b : Bool) : RegistryFrame s (t.setDispatch b) :=
  h.trans (by constructor <;> rfl)

theorem RegistryFrame.setDivcnt (h : RegistryFrame s t) (d : Nat) : RegistryFrame s (t.setDivcnt d) :=
  h.trans (by constructor <;> rfl)

theorem RegistryFrame.suspendRun (h : RegistryFrame s t) : RegistryFrame s t.suspendRun :=
  h.trans (suspendRun_frame t).registry

theorem RegistryFrame.resumeRun (h : RegistryFrame s t) : RegistryFrame s t.resumeRun :=
  h.trans (resumeRun_frame t).registry

theorem RegistryFrame.storeThrough (h : RegistryFrame s t) (w : MapEntry) (o v : Byte) :
    RegistryFrame s (t.storeThrough w o v) :=
  h.trans (by cases w <;> constructor <;> rfl)

end

theorem registryFrame_stable (s : State) : NestedStable (RegistryFrame s) where
  call := fun _ _ h => h.log _
  answer := fun _ _ _ h => h.log _
  fresh := fun _ h => h.trans (by constructor <;> rfl)
  nested := fun i t h => h.trans (runNested_frame i t).registry

theorem readByte_registryFrame (kind : ReadKind) (evt sync : Bool) (addr : Addr) (s : State) :
    RegistryFrame s (readByte kind evt sync addr s).1 :=
  (readByte_frame kind evt sync addr s).registry

theorem writeByte_registryFrame (evt sync : Bool) (addr : Addr) (value : Byte) (s : State) :
    RegistryFrame s (writeByte evt sync addr value s).1 := by
  rw [writeByte_eq]
  exact (writeChain_frame evt sync addr value s).registry.storeThrough _ _ _

theorem runTickStep_registryFrame (k : TickTarget) (p : TickStep) (s : State) :
    RegistryFrame s (runTickStep k p s) :=
  runTickStep_keeps (registryFrame_stable s) (fun _ _ h => h.log _) (fun _ _ h => h.setDispatch _)
    (fun _ h => h.suspendRun) (fun _ h => h.resumeRun) (fun _ _ _ _ h => h.storeThrough _ _ _) (.refl s)

theorem tickDevices_registryFrame (plan : TickPlan) (s : State) : RegistryFrame s (tickDevices plan s) :=
  tickDevices_keeps (registryFrame_stable s) (fun _ _ h => h.log _) (fun _ _ h => h.setDispatch _)
    (fun _ h => h.suspendRun) (fun _ h => h.resumeRun) (fun _ _ _ _ h => h.storeThrough _ _ _) (.refl s)

theorem tickBody_registryFrame (s : State) : RegistryFrame s (tickBody s).1 := by
  have hcpu := runTickStep_registryFrame .cpu s.env.ticks.cpu s
  simp only [tickBody]
  split
  · exact (hcpu.setDivcnt _).trans (tickDevices_registryFrame _ _)
  · exact hcpu.setDivcnt _

/-! ## What the scheduler and the card transactions leave alone -/

theorem pauseRun_frame (s : State) : SchedulerFrame s s.pauseRun := by
  rw [State.pauseRun]; split <;> constructor <;> rfl

theorem startBody_frame (s : State) : SchedulerFrame s (startBody s).1 := by
  simp only [startBody]; split <;> constructor <;> rfl

theorem stopBody_frame (s : State) : SchedulerFrame s (stopBody s).1 := by constructor <;> rfl

theorem SchedulerFrame.cell {s t : State} (h : SchedulerFrame s t) (b : Bank) (p o : Byte) :
    t.cell b p o = s.cell b p o :=
  cell_congr h.mem h.params h.ramEpoch b p o

/-- What CATT, CDET and CRECFG leave alone. -/
structure CardFrame (s t : State) : Prop where
  sw : t.sw = s.sw
  asl : t.asl = s.asl
  divcnt : t.divcnt = s.divcnt
  speedset : t.speedset = s.speedset
  booted : t.booted = s.booted
  inDispatch : t.inDispatch = s.inDispatch
  response : t.response = s.response
  events : t.events = s.events
  pending : t.pending = s.pending
  params : t.params = s.params
  env : t.env = s.env
  ramEpoch : t.ramEpoch = s.ramEpoch
  fresh : t.fresh = s.fresh

theorem CardFrame.trans {s t u : State} (h : CardFrame s t) (k : CardFrame t u) : CardFrame s u :=
  ⟨k.sw.trans h.sw, k.asl.trans h.asl, k.divcnt.trans h.divcnt, k.speedset.trans h.speedset,
    k.booted.trans h.booted, k.inDispatch.trans h.inDispatch, k.response.trans h.response, k.events.trans h.events,
    k.pending.trans h.pending, k.params.trans h.params, k.env.trans h.env, k.ramEpoch.trans h.ramEpoch,
    k.fresh.trans h.fresh⟩

theorem SchedulerFrame.card {s t : State} (h : SchedulerFrame s t) : CardFrame s t :=
  ⟨h.sw, h.asl, h.divcnt, h.speedset, h.booted, h.inDispatch, h.response, h.events, h.pending, h.params, h.env,
    h.ramEpoch, h.fresh⟩

theorem cattBody_frame (n : Slot) (s : State) : CardFrame s (cattBody n s).1 := by
  rw [cattBody]; split <;> constructor <;> rfl

theorem cdetBody_frame (n : Slot) (s : State) : CardFrame s (cdetBody n s).1 := by constructor <;> rfl

/-- CRECFG is SUSPEND, CDET, CATT and RESUME (44_cards.md R152). -/
theorem crecfgBody_frame (n : Slot) (s : State) : CardFrame s (crecfgBody n s).1 := by
  have inner : ∀ t, CardFrame t (cattBody n (cdetBody n t).1).1 := fun t =>
    (cdetBody_frame n t).trans (cattBody_frame n _)
  simp only [crecfgBody]
  split
  · exact ((suspendRun_frame s).card.trans (inner _)).trans (resumeRun_frame _).card
  · exact inner s

theorem bankrdBody_frame (b : Bank) (p o : Byte) (s : State) : ChainFrame s (bankrdBody b p o s).1 := by
  rw [bankrdBody]; split <;> constructor <;> rfl

/-! ## All transactions but those on slots and listeners -/

/-- The transactions that may change the slots or the registry (10_state.md R20, R23). -/
def changesRegistry : Instr → Bool
  | .catt _ | .cdet _ | .crecfg _ | .ladd _ | .lrem _ | .coldrst => true
  | _ => false

theorem effect_registryFrame {i : Instr} (hi : changesRegistry i = false) (s : State) :
    RegistryFrame s (effect i s).1 := by
  cases i with
  | rd kind evt sync addr => exact readByte_registryFrame kind evt sync addr s
  | wr evt sync addr value => exact writeByte_registryFrame evt sync addr value s
  | rdw kind evt sync addr =>
    exact (readByte_registryFrame kind evt sync addr s).trans (readByte_registryFrame kind evt sync _ _)
  | wrw evt sync addr data =>
    exact (writeByte_registryFrame evt sync addr _ s).trans (writeByte_registryFrame evt sync _ _ _)
  | tick => exact tickBody_registryFrame s
  | bankrd b p o => exact (bankrdBody_frame b p o s).registry
  | pause => exact (pauseRun_frame s).registry
  | resume => exact (resumeRun_frame s).registry
  | suspend => exact (suspendRun_frame s).registry
  | start => exact (startBody_frame s).registry
  | stop => exact (stopBody_frame s).registry
  | warmrst => simp only [effect, warmrstBody]; split <;> constructor <;> rfl
  | swget | swset | swtgl | swrst | reconf | mapq | bankwr | slotsel | spdreq | spdrel | romload => constructor <;> rfl
  | catt | cdet | crecfg | ladd | lrem | coldrst => cases hi

/-- Accepted or refused, such a transaction at the port leaves them alone. -/
theorem exec_registryFrame {i : Instr} {s t : State} (hi : changesRegistry i = false) (h : exec i s = .next t) :
    RegistryFrame s t := by
  have hc : RegistryFrame s s.clearEvents := by constructor <;> rfl
  have hr : ∀ u r, RegistryFrame u (State.respond u r) := fun u r => by constructor <;> rfl
  rw [exec_eq_effect] at h
  rcases transact_cases h with ⟨-, ht⟩ | ⟨-, ht⟩
  · cases ht
    exact (hc.trans (effect_registryFrame hi _)).trans (hr _ _)
  · cases ht
    exact hc.trans (hr _ _)

/-! ## Parameters, environment and later requests (10_state.md R27) -/

/-- What the outside holds at the port: the parameters, the out-of-band operands, the transactions not yet taken. -/
def State.port (s : State) : Params × Environment × List Request := (s.params, s.env, s.pending)

theorem RegistryFrame.port {s t : State} (h : RegistryFrame s t) : t.port = s.port := by
  rw [State.port, h.params, h.env, h.pending, State.port]

theorem CardFrame.port {s t : State} (h : CardFrame s t) : t.port = s.port := by
  rw [State.port, h.params, h.env, h.pending, State.port]

/-- No effect writes what the outside holds. -/
theorem effect_port (i : Instr) (s : State) : (effect i s).1.port = s.port := by
  cases hi : changesRegistry i with
  | false => exact (effect_registryFrame hi s).port
  | true =>
    cases i with
    | catt n => exact (cattBody_frame n s).port
    | cdet n => exact (cdetBody_frame n s).port
    | crecfg n => exact (crecfgBody_frame n s).port
    | ladd | lrem | coldrst => rfl
    | _ => cases hi

/-- Settles O13: no effect writes the port's side, and the blank page is its BLANK_FILL. -/
theorem parametersAndBlankPageAreNeverWritten : Obligations.ParametersAndBlankPageAreNeverWritten := by
  intro i s t h
  have hport : t.port = s.port := exec_keeps State.port (fun _ => rfl) (fun _ _ => rfl) (effect_port i) h
  simp only [State.port, Prod.mk.injEq] at hport
  obtain ⟨hparams, henv, hpending⟩ := hport
  exact ⟨hparams, henv, hpending, fun p o => by rw [cell_blank, hparams]⟩

/-- Settles O15: the transactions left are those of `exec_registryFrame`, and LADD and LREM, which keep the slots. -/
theorem onlyCardAndListenerTransactionsChangeSlotsAndRegistry :
    Obligations.OnlyCardAndListenerTransactionsChangeSlotsAndRegistry := by
  intro i s t h hcatt hcdet hcrecfg hcoldrst
  cases hi : changesRegistry i with
  | false =>
    have hf := exec_registryFrame hi h
    exact ⟨hf.occ, fun _ _ => hf.lreg⟩
  | true =>
    cases i with
    | ladd id =>
      exact ⟨exec_keeps State.occ (fun _ => rfl) (fun _ _ => rfl) (fun _ => rfl) h, fun hid _ => absurd rfl (hid id)⟩
    | lrem id =>
      exact ⟨exec_keeps State.occ (fun _ => rfl) (fun _ _ => rfl) (fun _ => rfl) h, fun _ hid => absurd rfl (hid id)⟩
    | catt n => exact absurd rfl (hcatt n)
    | cdet n => exact absurd rfl (hcdet n)
    | crecfg n => exact absurd rfl (hcrecfg n)
    | coldrst => exact absurd rfl hcoldrst
    | _ => cases hi

/-- Settles O14: a read keeps memory by its frame (20_memory.md R52), and no other effect left stores. -/
theorem onlyTheListedTransactionsChangeCells : Obligations.OnlyTheListedTransactionsChangeCells := by
  intro i s t h hwr hwrw hbankwr hcatt hcrecfg hromload hcoldrst htick b p o
  refine exec_keeps (fun s => s.cell b p o) (fun _ => rfl) (fun _ _ => rfl) (fun s => ?_) h
  cases i with
  | rd kind evt sync addr => exact (readByte_frame kind evt sync addr s).cell b p o
  | rdw kind evt sync addr =>
    exact ((readByte_frame kind evt sync addr s).trans (readByte_frame kind evt sync _ _)).cell b p o
  | bankrd c q r => exact (bankrdBody_frame c q r s).access.cell b p o
  | pause => exact (pauseRun_frame s).cell b p o
  | resume => exact (resumeRun_frame s).cell b p o
  | suspend => exact (suspendRun_frame s).cell b p o
  | start => exact (startBody_frame s).cell b p o
  | stop => exact (stopBody_frame s).cell b p o
  | warmrst => simp only [effect, warmrstBody]; split <;> rfl
  | swget | swset | swtgl | swrst | reconf | mapq | cdet | slotsel | ladd | lrem | spdreq | spdrel => rfl
  | wr e y a v => exact absurd rfl (hwr e y a v)
  | wrw e y a d => exact absurd rfl (hwrw e y a d)
  | bankwr c q r v => exact absurd rfl (hbankwr c q r v)
  | catt n => exact absurd rfl (hcatt n)
  | crecfg n => exact absurd rfl (hcrecfg n)
  | romload => exact absurd rfl hromload
  | coldrst => exact absurd rfl hcoldrst
  | tick => exact absurd rfl htick

/-- Settles O16: no effect left writes the switches; the card transactions and the scheduler's keep them by their
frames. -/
theorem onlySwitchTransactionsResetsAndAccessesMoveSwitches :
    Obligations.OnlySwitchTransactionsResetsAndAccessesMoveSwitches := by
  intro i s t h hswset hswtgl hswrst hcoldrst hwarmrst hrd hwr hrdw hwrw htick
  refine exec_keeps State.sw (fun _ => rfl) (fun _ _ => rfl) (fun s => ?_) h
  cases i with
  | bankrd b p o => simp only [effect, bankrdBody]; split <;> rfl
  | catt n => exact (cattBody_frame n s).sw
  | cdet n => exact (cdetBody_frame n s).sw
  | crecfg n => exact (crecfgBody_frame n s).sw
  | pause => exact (pauseRun_frame s).sw
  | resume => exact (resumeRun_frame s).sw
  | suspend => exact (suspendRun_frame s).sw
  | start => exact (startBody_frame s).sw
  | stop => exact (stopBody_frame s).sw
  | swget | reconf | mapq | bankwr | slotsel | ladd | lrem | spdreq | spdrel | romload => rfl
  | swset k v => exact absurd rfl (hswset k v)
  | swtgl k => exact absurd rfl (hswtgl k)
  | swrst => exact absurd rfl hswrst
  | coldrst => exact absurd rfl hcoldrst
  | warmrst => exact absurd rfl hwarmrst
  | rd k e y a => exact absurd rfl (hrd k e y a)
  | wr e y a v => exact absurd rfl (hwr e y a v)
  | rdw k e y a => exact absurd rfl (hrdw k e y a)
  | wrw e y a d => exact absurd rfl (hwrw e y a d)
  | tick => exact absurd rfl htick

/-! ## The reset state (10_state.md R28, 70_reset_and_hazards.md R203) -/

/-- Settles O59: memory and the card sets are empty, tables and index are rebuilt from the state itself, and DIVCNT is
CLOCK_DIVISOR. -/
theorem resetMeetsTheInvariant : Obligations.ResetMeetsTheInvariant where
  memory := ⟨List.Pairwise.nil, fun _ hc => absurd hc List.not_mem_nil⟩
  quiet := rfl
  divisor := Nat.le_add_left 1 _
  map _ := ⟨readTableOf_eq_closed resetInputs, writeTableOf_eq_closed resetInputs⟩
  index _ := ⟨rfl, rfl⟩
  clock _ := ⟨Nat.le_add_left 1 _, Nat.le_refl _⟩
  cards _ n :=
    have hoff : PerSlot.allOff.get n ≠ true := by simp
    ⟨fun h => absurd h hoff, fun h => absurd h hoff⟩

end Sys2Proof.Machine
end

section
/-! Proofs of the statements about the step (20_memory.md R56). -/

namespace Sys2Proof.Machine

/-! ## The step (20_memory.md R56, 30_encoding.md R70) -/

/-- Of the step's branches, the one for a word that decodes: its transaction runs once the request is taken. -/
theorem step_of_decode_ok {s : State} {r : Request} {rest : List Request} {i : Instr} (hp : s.pending = r :: rest)
    (hd : decode r.word = .ok i) : step s = exec i (s.take r rest) := by
  rw [step, hp]
  dsimp only
  rw [hd]

/-- Settles O6: the state from which the request is taken has the rest of the list pending (log 1) and the request's
operands as the environment's side (log 2). -/
theorem stepRunsTheDecodedTransaction : Obligations.StepRunsTheDecodedTransaction :=
  fun _ _ _ _ hp hd => step_of_decode_ok hp hd

end Sys2Proof.Machine
end

section
/-! Proofs of the statements about the round trip between transactions and their words (30_encoding.md R70, R71, R74).
Per format one equivalence says what its decoder accepts, in the fields the encoder writes; read from right to left it
gives the one direction of the round trip, from left to right the other. -/

namespace Sys2Proof

/-! ## Fields that end at the top of a word -/

section TopField

variable {n k : Nat} {x : BitVec n}

/-- The bits of a word from `k` up are 0 exactly when its number is below `2 ^ k`. -/
theorem topField_eq_zero_iff (hk : k ≤ n) : x.extractLsb' k (n - k) = 0 ↔ x.toNat < 2 ^ k := by
  have hlt : x.toNat / 2 ^ k < 2 ^ (n - k) :=
    Nat.div_lt_of_lt_mul (by rw [← pow_add, Nat.add_sub_cancel' hk]; exact x.isLt)
  rw [← BitVec.toNat_inj, BitVec.extractLsb'_toNat, Nat.shiftRight_eq_div_pow, Nat.mod_eq_of_lt hlt]
  exact Nat.div_eq_zero_iff_lt (Nat.two_pow_pos k)

/-- A word whose bits from `k` up are 0 is the number in its low `k` bits. -/
theorem ofNat_lowField (hk : k ≤ n) (h : x.extractLsb' k (n - k) = 0) :
    BitVec.ofNat n (x.extractLsb' 0 k).toNat = x := by
  rw [BitVec.extractLsb'_toNat, Nat.shiftRight_zero, Nat.mod_eq_of_lt ((topField_eq_zero_iff hk).mp h),
    BitVec.ofNat_toNat, BitVec.setWidth_eq]

/-- Masking with ones from bit `k` up leaves nothing exactly when the number is below `2 ^ k`. -/
theorem and_onesFrom_eq_zero_iff : x &&& (BitVec.allOnes n <<< k) = 0 ↔ x.toNat < 2 ^ k := by
  constructor
  · intro h
    apply Nat.lt_pow_two_of_testBit
    intro i hi
    by_cases hn : i < n
    · have hbit := congrArg (·.getLsbD i) h
      simpa [hn, show i - k < n by omega, Nat.not_lt.mpr hi, ← BitVec.getLsbD_eq_getElem, BitVec.getLsbD] using hbit
    · exact BitVec.getLsbD_of_ge x i (by omega)
  · intro h
    apply BitVec.eq_of_getLsbD_eq
    intro i _
    by_cases hi : i < k
    · simp [hi]
    · have hbit : x.getLsbD i = false :=
        Nat.testBit_lt_two_pow (h.trans_le (Nat.pow_le_pow_right (by decide) (by omega)))
      simp [hbit]

end TopField

/-! ## The bytes of a 16-bit field -/

theorem highByte_append (h l : Byte) : (h ++ l : Word16).extractLsb' 8 8 = h := BitVec.extractLsb'_append_eq_left

theorem lowByte_append (h l : Byte) : (h ++ l : Word16).extractLsb' 0 8 = l := BitVec.extractLsb'_append_eq_right

theorem eq_append_of_highByte {a : Word16} {h : Byte} (hh : a.extractLsb' 8 8 = h) : a = h ++ a.extractLsb' 0 8 := by
  rw [← hh]
  exact (BitVec.extractLsb'_append_extractLsb' (w := 8) (len := 8)).symm

/-! ## The small fields read back (30_encoding.md R71 table E1) -/

theorem Switch.ofIndex_eq_some_iff {x : Nat} {k : Switch} : Switch.ofIndex? x = some k ↔ x = k.index := by
  constructor
  · intro h
    unfold Switch.ofIndex? at h
    split at h <;> cases h <;> rfl
  · rintro rfl
    exact k.ofIndex_index

theorem Bank.ofId_eq_some_iff {x : Nat} {b : Bank} : Bank.ofId? x = some b ↔ x = b.id := by
  constructor
  · intro h
    unfold Bank.ofId? at h
    split at h <;> cases h <;> rfl
  · rintro rfl
    exact b.ofId_id

/-- A 3-bit number is that of a slot, or 0 for no slot. -/
theorem slotOptionNumber_ofNumber {x : Nat} (h : x < 8) : slotOptionNumber (Slot.ofNumber? x) = x := by
  decide +revert

/-- MOD of format A is given by its fields. -/
theorem eq_accessMod_of_fields {m : Byte} {k : BitVec 2} :
    m.extractLsb' 4 4 = 0 → m.extractLsb' 0 2 = k → m = accessMod k (m.getLsbD 2) (m.getLsbD 3) := by
  decide +revert

/-- MOD of format Q is given by TBL. -/
theorem eq_tableBit_of_field {m : Byte} : m.extractLsb' 1 7 = 0 →
    m = (BitVec.ofBool (MapTable.bit (if m.getLsbD 0 then .writeTable else .readTable))).setWidth 8 := by
  decide +revert

/-- The TBL field of format Q. -/
theorem table_field (t : MapTable) : ((BitVec.ofBool t.bit).setWidth 8 : Byte).extractLsb' 1 7 = 0#7 ∧
    (if ((BitVec.ofBool t.bit).setWidth 8 : Byte).getLsbD 0 then MapTable.writeTable else .readTable) = t := by
  cases t <;> decide

/-- DATA of SWSET is given by V. -/
theorem eq_bit16_of_field {d : Word16} (h : d.extractLsb' 1 15 = 0) : d = bit16 (d.getLsbD 0) := by
  have hlt : d.toNat < 2 := (topField_eq_zero_iff (k := 1) (by decide)).mp h
  obtain hd | hd : d.toNat = (0#16).toNat ∨ d.toNat = (1#16).toNat := by
    simp only [BitVec.toNat_ofNat]
    omega
  · rw [BitVec.eq_of_toNat_eq hd]
    decide
  · rw [BitVec.eq_of_toNat_eq hd]
    decide

/-- The V field of SWSET. -/
theorem bit16_field (v : Bool) : (bit16 v).extractLsb' 1 15 = 0#15 ∧ (bit16 v).getLsbD 0 = v := by
  cases v <;> decide

/-! ## What each format's decoder accepts, as the fields the encoder writes (30_encoding.md R71 table E1) -/

section Formats

variable {m : Byte} {a d : Word16} {z : Bool} {i : Instr}

theorem decodeReadFormat_eq_ok_iff {mk : ReadKind → Bool → Bool → Addr → Instr} :
    decodeReadFormat mk m a d = .ok i ↔ ∃ k e y, m = accessMod k.code e y ∧ d = 0 ∧ mk k e y a = i := by
  constructor
  · intro h
    unfold decodeReadFormat at h
    split_ifs at h with hz hread hexec <;> cases h <;> obtain ⟨hm, hd⟩ := not_or.mp hz
    · exact ⟨.read, _, _, eq_accessMod_of_fields (not_not.mp hm) hread, not_not.mp hd, rfl⟩
    · exact ⟨.execute, _, _, eq_accessMod_of_fields (not_not.mp hm) hexec, not_not.mp hd, rfl⟩
  · rintro ⟨k, e, y, rfl, rfl, rfl⟩
    obtain ⟨hz, hk, he, hy⟩ := accessMod_fields k.code e y
    simp only [decodeReadFormat, hz, hk, he, hy]
    cases k <;> rfl

theorem decodeWriteFormat_eq_ok_iff {mk : Bool → Bool → Addr → Instr} :
    decodeWriteFormat mk z m a = .ok i ↔ ∃ e y, m = accessMod 1 e y ∧ z = true ∧ mk e y a = i := by
  constructor
  · intro h
    unfold decodeWriteFormat at h
    split_ifs at h with hz hkind
    cases h
    simp only [not_or, not_not, Bool.not_eq_false] at hz
    exact ⟨_, _, eq_accessMod_of_fields hz.1 hkind, hz.2, rfl⟩
  · rintro ⟨e, y, rfl, rfl, rfl⟩
    obtain ⟨hz, hk, he, hy⟩ := accessMod_fields 1 e y
    simp only [decodeWriteFormat, hz, hk, he, hy]
    rfl

theorem decodeSwitchFormat_eq_ok_iff {mk : Switch → Instr} :
    decodeSwitchFormat mk z m a = .ok i ↔
      ∃ k : Switch, m = BitVec.ofNat 8 k.index ∧ a = 0 ∧ z = true ∧ mk k = i := by
  constructor
  · intro h
    unfold decodeSwitchFormat at h
    split_ifs at h with hz
    simp only [not_or, not_not, Bool.not_eq_false] at hz
    obtain ⟨hm, ha, hd⟩ := hz
    split at h <;> cases h
    next k hk => exact ⟨k, by rw [← Switch.ofIndex_eq_some_iff.mp hk, ofNat_lowField (by decide) hm], ha, hd, rfl⟩
  · rintro ⟨k, rfl, rfl, rfl, rfl⟩
    obtain ⟨hz, hk⟩ := switch_field k
    simp only [decodeSwitchFormat, hz, hk]
    rfl

theorem decodeNoOperand_eq_ok_iff {j : Instr} :
    decodeNoOperand j m a d = .ok i ↔ m = 0 ∧ a = 0 ∧ d = 0 ∧ j = i := by
  unfold decodeNoOperand
  split_ifs with hz
  · simp only [false_iff]
    tauto
  · simp only [Except.ok.injEq]
    tauto

theorem decodeQueryFormat_eq_ok_iff :
    decodeQueryFormat m a d = .ok i ↔
      ∃ t p, m = (BitVec.ofBool (MapTable.bit t)).setWidth 8 ∧ a = 0#8 ++ p ∧ d = 0 ∧ .mapq t p = i := by
  constructor
  · intro h
    rw [decodeQueryFormat, ite_eq_iff] at h
    obtain ⟨-, h⟩ | ⟨hz, h⟩ := h <;> cases h
    simp only [not_or, not_not] at hz
    obtain ⟨hm, ha, hd⟩ := hz
    exact ⟨_, _, eq_tableBit_of_field hm, eq_append_of_highByte ha, hd, rfl⟩
  · rintro ⟨t, p, rfl, rfl, rfl, rfl⟩
    obtain ⟨hz, ht⟩ := table_field t
    simp only [decodeQueryFormat, hz, ht, highByte_append, lowByte_append]
    rfl

theorem decodeBankFormat_eq_ok_iff {mk : Bank → Byte → Byte → Instr} :
    decodeBankFormat mk z m a = .ok i ↔ ∃ (b : Bank) (p o : Byte),
      m = BitVec.ofNat 8 b.id ∧ a = p ++ o ∧ z = true ∧ p.toNat < b.pages ∧ mk b p o = i := by
  constructor
  · intro h
    unfold decodeBankFormat at h
    split_ifs at h with hz
    simp only [not_or, not_not, Bool.not_eq_false] at hz
    obtain ⟨hm, hd⟩ := hz
    split at h
    · cases h
    next b hb =>
      have hmb : m = BitVec.ofNat 8 b.id := by rw [← Bank.ofId_eq_some_iff.mp hb, ofNat_lowField (by decide) hm]
      split_ifs at h with hp
      cases h
      exact ⟨b, _, _, hmb, eq_append_of_highByte rfl, hd, hp, rfl⟩
  · rintro ⟨b, p, o, rfl, rfl, rfl, hp, rfl⟩
    obtain ⟨hz, hb⟩ := bank_field b
    simp only [decodeBankFormat, hz, hb, highByte_append, lowByte_append, hp]
    rfl

theorem decodeSlotFormat_eq_ok_iff {mk : Option Slot → Except DecodeError Instr} :
    decodeSlotFormat mk m a d = .ok i ↔
      ∃ n, m = BitVec.ofNat 8 (slotOptionNumber n) ∧ a = 0 ∧ d = 0 ∧ mk n = .ok i := by
  constructor
  · intro h
    unfold decodeSlotFormat at h
    split_ifs at h with hz
    simp only [not_or, not_not] at hz
    obtain ⟨hm, ha, hd⟩ := hz
    have hmn : m = BitVec.ofNat 8 (slotOptionNumber (Slot.ofNumber? (m.extractLsb' 0 3).toNat)) := by
      rw [slotOptionNumber_ofNumber (m.extractLsb' 0 3).isLt, ofNat_lowField (by decide) hm]
    exact ⟨_, hmn, ha, hd, h⟩
  · rintro ⟨n, rfl, rfl, rfl, h⟩
    obtain ⟨hz, hn⟩ := slot_field n
    simp only [decodeSlotFormat, hz, hn, h]
    rfl

theorem decodeNeededSlot_eq_ok_iff {mk : Slot → Instr} :
    decodeSlotFormat (needSlot mk) m a d = .ok i ↔
      ∃ n : Slot, m = BitVec.ofNat 8 n.number ∧ a = 0 ∧ d = 0 ∧ mk n = i := by
  rw [decodeSlotFormat_eq_ok_iff]
  constructor
  · rintro ⟨_ | n, hm, ha, hd, h⟩ <;> cases h
    exact ⟨n, hm, ha, hd, rfl⟩
  · rintro ⟨n, hm, ha, hd, rfl⟩
    exact ⟨some n, hm, ha, hd, rfl⟩

theorem decodeHandleFormat_eq_ok_iff {mk : Word16 → Instr} :
    decodeHandleFormat mk m a d = .ok i ↔ m = 0 ∧ a = 0 ∧ mk d = i := by
  unfold decodeHandleFormat
  split_ifs with hz
  · simp only [false_iff]
    tauto
  · simp only [Except.ok.injEq]
    tauto

end Formats

/-! ## The round trip (30_encoding.md R70, R71, R74) -/

theorem decode_encode_eq_decodeFields (i : Instr) :
    decode (encode i) = decodeFields i.opcode i.modBits i.addrBits i.dataBits := by
  simp only [decode, encode, opcField_assemble, modField_assemble, addrField_assemble, dataField_assemble]

/-- Settles O1: the row of the transaction's operation code accepts the fields the encoder writes, format by format. -/
theorem decodeOfEncodeIsTheInstruction : Obligations.DecodeOfEncodeIsTheInstruction := by
  intro i hwf
  rw [decode_encode_eq_decodeFields]
  cases i with
  | rd k e y a | rdw k e y a => exact decodeReadFormat_eq_ok_iff.mpr ⟨k, e, y, rfl, rfl, rfl⟩
  | wr e y a v =>
    refine (decodeWriteFormat_eq_ok_iff (mk := fun e y a => .wr e y a ((0#8 ++ v).extractLsb' 0 8))).mpr ?_
    exact ⟨e, y, rfl, beq_iff_eq.mpr (highByte_append 0 v), congrArg (Instr.wr e y a) (lowByte_append 0 v)⟩
  | wrw e y a d =>
    exact (decodeWriteFormat_eq_ok_iff (mk := fun e y a => .wrw e y a d)).mpr ⟨e, y, rfl, rfl, rfl⟩
  | swget k | swtgl k => exact decodeSwitchFormat_eq_ok_iff.mpr ⟨k, rfl, rfl, rfl, rfl⟩
  | swset k v =>
    obtain ⟨hz, hv⟩ := bit16_field v
    exact decodeSwitchFormat_eq_ok_iff.mpr ⟨k, rfl, rfl, beq_iff_eq.mpr hz, congrArg (Instr.swset k) hv⟩
  | mapq t p => exact decodeQueryFormat_eq_ok_iff.mpr ⟨t, p, rfl, rfl, rfl, rfl⟩
  | bankrd b p o => exact decodeBankFormat_eq_ok_iff.mpr ⟨b, p, o, rfl, rfl, rfl, of_decide_eq_true hwf, rfl⟩
  | bankwr b p o v =>
    refine (decodeBankFormat_eq_ok_iff (mk := fun b p o => .bankwr b p o ((0#8 ++ v).extractLsb' 0 8))).mpr ?_
    exact ⟨b, p, o, rfl, rfl, beq_iff_eq.mpr (highByte_append 0 v), of_decide_eq_true hwf,
      congrArg (Instr.bankwr b p o) (lowByte_append 0 v)⟩
  | catt n | cdet n | crecfg n => exact decodeNeededSlot_eq_ok_iff.mpr ⟨n, rfl, rfl, rfl, rfl⟩
  | slotsel n =>
    exact (decodeSlotFormat_eq_ok_iff (mk := fun n => .ok (.slotsel n))).mpr ⟨n, rfl, rfl, rfl, rfl⟩
  | ladd id | lrem id | spdreq id | spdrel id => exact decodeHandleFormat_eq_ok_iff.mpr ⟨rfl, rfl, rfl⟩
  | swrst | reconf | tick | pause | resume | suspend | start | stop | coldrst | warmrst | romload =>
    exact decodeNoOperand_eq_ok_iff.mpr ⟨rfl, rfl, rfl, rfl⟩

/-- The transaction is well formed and the encoder writes these four fields for it. -/
structure Instr.HasFields (i : Instr) (o m : Byte) (a d : Word16) : Prop where
  opcode : i.opcode.toNat = o.toNat
  mod : i.modBits = m
  addr : i.addrBits = a
  data : i.dataBits = d
  wellFormed : i.wellFormed = true

theorem Instr.HasFields.encode_eq {i : Instr} {o m : Byte} {a d : Word16} (h : i.HasFields o m a d) :
    encode i = assemble o m a d := by
  rw [encode, BitVec.eq_of_toNat_eq h.opcode, h.mod, h.addr, h.data]

/-- What the operation-code map reads has the fields it was read from, table E2 row by row. -/
theorem hasFields_of_decodeFields {o m : Byte} {a d : Word16} {i : Instr} (h : decodeFields o m a d = .ok i) :
    i.HasFields o m a d := by
  unfold decodeFields at h
  split at h
  case h_1 ho | h_3 ho =>
    obtain ⟨k, e, y, rfl, rfl, rfl⟩ := decodeReadFormat_eq_ok_iff.mp h
    exact ⟨ho.symm, rfl, rfl, rfl, rfl⟩
  case h_2 ho =>
    obtain ⟨e, y, rfl, hz, rfl⟩ := decodeWriteFormat_eq_ok_iff.mp h
    exact ⟨ho.symm, rfl, rfl, (eq_append_of_highByte (eq_of_beq hz)).symm, rfl⟩
  case h_4 ho =>
    obtain ⟨e, y, rfl, -, rfl⟩ := decodeWriteFormat_eq_ok_iff.mp h
    exact ⟨ho.symm, rfl, rfl, rfl, rfl⟩
  case h_5 ho | h_7 ho =>
    obtain ⟨k, rfl, rfl, hz, rfl⟩ := decodeSwitchFormat_eq_ok_iff.mp h
    exact ⟨ho.symm, rfl, rfl, (eq_of_beq hz).symm, rfl⟩
  case h_6 ho =>
    obtain ⟨k, rfl, rfl, hz, rfl⟩ := decodeSwitchFormat_eq_ok_iff.mp h
    exact ⟨ho.symm, rfl, rfl, (eq_bit16_of_field (eq_of_beq hz)).symm, rfl⟩
  case h_10 ho =>
    obtain ⟨t, p, rfl, rfl, rfl, rfl⟩ := decodeQueryFormat_eq_ok_iff.mp h
    exact ⟨ho.symm, rfl, rfl, rfl, rfl⟩
  case h_11 ho =>
    obtain ⟨b, p, x, rfl, rfl, hz, hp, rfl⟩ := decodeBankFormat_eq_ok_iff.mp h
    exact ⟨ho.symm, rfl, rfl, (eq_of_beq hz).symm, decide_eq_true hp⟩
  case h_12 ho =>
    obtain ⟨b, p, x, rfl, rfl, hz, hp, rfl⟩ := decodeBankFormat_eq_ok_iff.mp h
    exact ⟨ho.symm, rfl, rfl, (eq_append_of_highByte (eq_of_beq hz)).symm, decide_eq_true hp⟩
  case h_13 ho | h_14 ho | h_15 ho =>
    obtain ⟨n, rfl, rfl, rfl, rfl⟩ := decodeNeededSlot_eq_ok_iff.mp h
    exact ⟨ho.symm, rfl, rfl, rfl, rfl⟩
  case h_16 ho =>
    obtain ⟨n, rfl, rfl, rfl, hn⟩ := decodeSlotFormat_eq_ok_iff.mp h
    cases hn
    exact ⟨ho.symm, rfl, rfl, rfl, rfl⟩
  case h_17 ho | h_18 ho | h_25 ho | h_26 ho =>
    obtain ⟨rfl, rfl, rfl⟩ := decodeHandleFormat_eq_ok_iff.mp h
    exact ⟨ho.symm, rfl, rfl, rfl, rfl⟩
  case h_8 ho | h_9 ho | h_19 ho | h_20 ho | h_21 ho | h_22 ho | h_23 ho | h_24 ho | h_27 ho | h_28 ho | h_29 ho =>
    obtain ⟨rfl, rfl, rfl, rfl⟩ := decodeNoOperand_eq_ok_iff.mp h
    exact ⟨ho.symm, rfl, rfl, rfl, rfl⟩
  case h_30 => cases h

/-- Settles O2: the fields of the word, put together again, are the word. -/
theorem encodeOfDecodeIsTheWord : Obligations.EncodeOfDecodeIsTheWord := by
  intro w i h
  have hf := hasFields_of_decodeFields h
  exact ⟨hf.encode_eq.trans (assemble_fields w), hf.wellFormed⟩

/-- Settles O4: the decoder evaluated on fourteen closed words. -/
theorem workedEncodingsDecode : Obligations.WorkedEncodingsDecode := by
  unfold Obligations.WorkedEncodingsDecode
  decide

end Sys2Proof
end

section
/-! Proofs of the statements about the rows of spec/opcode_table.json, the refusal of every other word (30_encoding.md
R80), and the word of a map entry (R75). -/

namespace Sys2Proof

/-! ## Masks, field by field -/

theorem eq_iff_fields {v w : TxnWord} : v = w ↔ opcField v = opcField w ∧ modField v = modField w ∧
    addrField v = addrField w ∧ dataField v = dataField w := by
  constructor
  · rintro rfl
    exact ⟨rfl, rfl, rfl, rfl⟩
  · rintro ⟨ho, hm, ha, hd⟩
    rw [← assemble_fields v, ho, hm, ha, hd, assemble_fields]

theorem and_eq_iff_fields {w mask v : TxnWord} : w &&& mask = v ↔
    opcField w &&& opcField mask = opcField v ∧ modField w &&& modField mask = modField v ∧
    addrField w &&& addrField mask = addrField v ∧ dataField w &&& dataField mask = dataField v := by
  simp only [eq_iff_fields, opcField, modField, addrField, dataField, BitVec.extractLsb'_and]

section Masks

variable {d : Word16}

@[simp] theorem byte_and_ones (m : Byte) : m &&& 0xFF#8 = m := BitVec.and_allOnes

@[simp] theorem word16_and_ones (d : Word16) : d &&& 0xFFFF#16 = d := BitVec.and_allOnes

/-- `DATA[15:8]` zero. -/
theorem and_FF00_eq_zero_iff : d &&& 0xFF00#16 = 0#16 ↔ d.extractLsb' 8 8 = 0#8 :=
  (and_onesFrom_eq_zero_iff (k := 8)).trans (topField_eq_zero_iff (k := 8) (by decide)).symm

/-- `DATA[15:1]` zero. -/
theorem and_FFFE_eq_zero_iff : d &&& 0xFFFE#16 = 0#16 ↔ d.extractLsb' 1 15 = 0#15 :=
  (and_onesFrom_eq_zero_iff (k := 1)).trans (topField_eq_zero_iff (k := 1) (by decide)).symm

end Masks

/-! ## The MOD values of the formats as masks and bounds -/

section Mod

variable {m : Byte}

/-- KIND 0 or 2, `MOD[7:4]` zero. -/
theorem exists_readMod_iff : (∃ (k : ReadKind) (e y : Bool), m = accessMod k.code e y) ↔ m &&& 0xF1 = 0 := by
  constructor
  · rintro ⟨k, e, y, rfl⟩
    cases k <;> cases e <;> cases y <;> decide
  · have hread : ∀ m : Byte, m &&& 0xF1 = 0 →
        ∃ k ∈ [ReadKind.read, .execute], m = accessMod k.code (m.getLsbD 2) (m.getLsbD 3) := by decide
    intro h
    obtain ⟨k, -, hk⟩ := hread m h
    exact ⟨k, _, _, hk⟩

/-- KIND 1, `MOD[7:4]` zero. -/
theorem exists_writeMod_iff : (∃ e y : Bool, m = accessMod 1 e y) ↔ m &&& 0xF3 = 1 := by
  decide +revert

/-- `MOD[7:1]` zero. -/
theorem exists_tableMod_iff : (∃ t : MapTable, m = (BitVec.ofBool t.bit).setWidth 8) ↔ m &&& 0xFE = 0 := by
  constructor
  · rintro ⟨t, rfl⟩
    cases t <;> decide
  · intro h
    have hlt : m.toNat < 2 ^ 1 := and_onesFrom_eq_zero_iff.mp h
    exact ⟨_, eq_tableBit_of_field ((topField_eq_zero_iff (k := 1) (by decide)).mpr hlt)⟩

/-- K at most 11. -/
theorem exists_switchMod_iff : (∃ k : Switch, m = BitVec.ofNat 8 k.index) ↔ m.toNat ≤ 11 := by
  constructor
  · rintro ⟨k, rfl⟩
    cases k <;> decide
  · have hindex : ∀ x ≤ 11, ∃ k ∈ Switch.all, x = k.index := by decide
    intro h
    obtain ⟨k, -, hk⟩ := hindex _ h
    exact ⟨k, by rw [← hk, BitVec.ofNat_toNat, BitVec.setWidth_eq]⟩

/-- SLOT, or 0 for no slot, `MOD[7:3]` zero. -/
theorem exists_slotOptionMod_iff :
    (∃ n : Option Slot, m = BitVec.ofNat 8 (slotOptionNumber n)) ↔ m &&& 0xF8 = 0 := by
  have hmask : m &&& 0xF8 = 0 ↔ m.toNat < 8 := and_onesFrom_eq_zero_iff (k := 3)
  rw [hmask]
  constructor
  · rintro ⟨_ | n, rfl⟩
    · decide
    · cases n <;> decide
  · intro h
    exact ⟨_, by rw [slotOptionNumber_ofNumber h, BitVec.ofNat_toNat, BitVec.setWidth_eq]⟩

/-- SLOT not 0, `MOD[7:3]` zero. -/
theorem exists_slotMod_iff : (∃ n : Slot, m = BitVec.ofNat 8 n.number) ↔ m &&& 0xF8 = 0 ∧ 1 ≤ m.toNat := by
  rw [← exists_slotOptionMod_iff]
  constructor
  · rintro ⟨n, rfl⟩
    exact ⟨⟨some n, rfl⟩, by cases n <;> decide⟩
  · rintro ⟨⟨_ | n, rfl⟩, hpos⟩
    · exact absurd hpos (by decide)
    · exact ⟨n, rfl⟩

end Mod

/-! ## The words each format's decoder accepts, by mask and note -/

section Accepts

variable {m : Byte} {a d : Word16} {z : Bool}

theorem readFormat_accepts_iff {mk : ReadKind → Bool → Bool → Addr → Instr} :
    (∃ i, decodeReadFormat mk m a d = .ok i) ↔ m &&& 0xF1 = 0 ∧ d = 0 := by
  simp only [decodeReadFormat_eq_ok_iff, ← exists_readMod_iff]
  constructor
  · rintro ⟨_, k, e, y, hm, hd, -⟩
    exact ⟨⟨k, e, y, hm⟩, hd⟩
  · rintro ⟨⟨k, e, y, hm⟩, hd⟩
    exact ⟨_, k, e, y, hm, hd, rfl⟩

theorem writeFormat_accepts_iff {mk : Bool → Bool → Addr → Instr} :
    (∃ i, decodeWriteFormat mk z m a = .ok i) ↔ m &&& 0xF3 = 1 ∧ z = true := by
  simp only [decodeWriteFormat_eq_ok_iff, ← exists_writeMod_iff]
  constructor
  · rintro ⟨_, e, y, hm, hz, -⟩
    exact ⟨⟨e, y, hm⟩, hz⟩
  · rintro ⟨⟨e, y, hm⟩, hz⟩
    exact ⟨_, e, y, hm, hz, rfl⟩

theorem switchFormat_accepts_iff {mk : Switch → Instr} :
    (∃ i, decodeSwitchFormat mk z m a = .ok i) ↔ (m &&& 0xF0 = 0 ∧ a = 0 ∧ z = true) ∧ m.toNat ≤ 11 := by
  have hmask : m &&& 0xF0 = 0 ↔ m.toNat < 2 ^ 4 := and_onesFrom_eq_zero_iff (k := 4)
  simp only [decodeSwitchFormat_eq_ok_iff, hmask]
  constructor
  · rintro ⟨_, k, hm, ha, hz, -⟩
    have hle := exists_switchMod_iff.mp ⟨k, hm⟩
    exact ⟨⟨by omega, ha, hz⟩, hle⟩
  · rintro ⟨⟨-, ha, hz⟩, hle⟩
    obtain ⟨k, hk⟩ := exists_switchMod_iff.mpr hle
    exact ⟨_, k, hk, ha, hz, rfl⟩

theorem noOperand_accepts_iff {j : Instr} :
    (∃ i, decodeNoOperand j m a d = .ok i) ↔ m = 0 ∧ a = 0 ∧ d = 0 := by
  simp only [decodeNoOperand_eq_ok_iff, exists_and_left, exists_eq', and_true]

theorem handleFormat_accepts_iff {mk : Word16 → Instr} :
    (∃ i, decodeHandleFormat mk m a d = .ok i) ↔ m = 0 ∧ a = 0 := by
  simp only [decodeHandleFormat_eq_ok_iff, exists_and_left, exists_eq', and_true]

theorem queryFormat_accepts_iff :
    (∃ i, decodeQueryFormat m a d = .ok i) ↔ m &&& 0xFE = 0 ∧ a &&& 0xFF00 = 0 ∧ d = 0 := by
  have hmask : a &&& 0xFF00 = 0 ↔ a.extractLsb' 8 8 = 0 := and_FF00_eq_zero_iff
  simp only [decodeQueryFormat_eq_ok_iff, ← exists_tableMod_iff, hmask]
  constructor
  · rintro ⟨_, t, p, hm, rfl, hd, -⟩
    exact ⟨⟨t, hm⟩, highByte_append 0 p, hd⟩
  · rintro ⟨⟨t, hm⟩, ha, hd⟩
    exact ⟨_, t, _, hm, eq_append_of_highByte ha, hd, rfl⟩

theorem eq_ofNat_bankId_iff {b : Bank} : m = BitVec.ofNat 8 b.id ↔ Bank.ofId? m.toNat = some b := by
  have hid := b.id_lt
  rw [Bank.ofId_eq_some_iff, ← BitVec.toNat_inj, BitVec.toNat_ofNat, Nat.mod_eq_of_lt (by omega)]

theorem bankFormat_accepts_iff {mk : Bank → Byte → Byte → Instr} :
    (∃ i, decodeBankFormat mk z m a = .ok i) ↔
      (m &&& 0xE0 = 0 ∧ z = true) ∧ ∃ b, Bank.ofId? m.toNat = some b ∧ (a.extractLsb' 8 8).toNat < b.pages := by
  have hmask : m &&& 0xE0 = 0 ↔ m.toNat < 2 ^ 5 := and_onesFrom_eq_zero_iff (k := 5)
  simp only [decodeBankFormat_eq_ok_iff, hmask, eq_ofNat_bankId_iff]
  constructor
  · rintro ⟨_, b, p, o, hm, rfl, hz, hp, -⟩
    have hid := b.id_lt
    have hmb := Bank.ofId_eq_some_iff.mp hm
    exact ⟨⟨by omega, hz⟩, b, hm, by rwa [highByte_append]⟩
  · rintro ⟨⟨-, hz⟩, b, hm, hp⟩
    exact ⟨_, b, _, _, hm, eq_append_of_highByte rfl, hz, hp, rfl⟩

theorem slotFormat_accepts_iff {mk : Option Slot → Instr} :
    (∃ i, decodeSlotFormat (fun n => .ok (mk n)) m a d = .ok i) ↔ m &&& 0xF8 = 0 ∧ a = 0 ∧ d = 0 := by
  simp only [decodeSlotFormat_eq_ok_iff, ← exists_slotOptionMod_iff]
  constructor
  · rintro ⟨_, n, hm, ha, hd, -⟩
    exact ⟨⟨n, hm⟩, ha, hd⟩
  · rintro ⟨⟨n, hm⟩, ha, hd⟩
    exact ⟨_, n, hm, ha, hd, rfl⟩

theorem neededSlot_accepts_iff {mk : Slot → Instr} :
    (∃ i, decodeSlotFormat (needSlot mk) m a d = .ok i) ↔ (m &&& 0xF8 = 0 ∧ a = 0 ∧ d = 0) ∧ 1 ≤ m.toNat := by
  simp only [decodeNeededSlot_eq_ok_iff]
  constructor
  · rintro ⟨_, n, hm, ha, hd, -⟩
    obtain ⟨hmask, hpos⟩ := exists_slotMod_iff.mp ⟨n, hm⟩
    exact ⟨⟨hmask, ha, hd⟩, hpos⟩
  · rintro ⟨⟨hmask, ha, hd⟩, hpos⟩
    obtain ⟨n, hm⟩ := exists_slotMod_iff.mpr ⟨hmask, hpos⟩
    exact ⟨_, n, hm, ha, hd, rfl⟩

end Accepts

/-! ## The rows of the table: one for each operation code -/

namespace Machine

section Rows

variable {o m : Byte} {a d : Word16} {w : TxnWord} {r : OpcodeRow} {n : Nat}

/-- The row of an operation code. -/
def rowOfOpcode (n : Nat) : Option OpcodeRow := opcodeRows.find? fun r => (opcField r.matched).toNat == n

theorem opcode_of_rowOfOpcode (h : rowOfOpcode n = some r) : (opcField r.matched).toNat = n := by
  unfold rowOfOpcode at h
  have hn := List.find?_some h
  exact eq_of_beq hn

/-- Every row masks the whole operation code. -/
theorem opcField_mask_of_mem (hr : r ∈ opcodeRows) : opcField r.mask = BitVec.allOnes 8 := by
  have hmask : ∀ r ∈ opcodeRows, opcField r.mask = BitVec.allOnes 8 := by decide
  exact hmask r hr

/-- No two rows have the same operation code, so a row that matches is the one of the word's operation code. -/
theorem rowOfOpcode_of_match (hr : r ∈ opcodeRows) (h : w &&& r.mask = r.matched) :
    rowOfOpcode (opcField w).toNat = some r := by
  have hrow : ∀ r ∈ opcodeRows, rowOfOpcode (opcField r.matched).toNat = some r := by decide
  rw [and_eq_iff_fields, opcField_mask_of_mem hr, BitVec.and_allOnes] at h
  obtain ⟨hopc, -⟩ := h
  rw [hopc, hrow r hr]

theorem wordWellFormed_iff : wordWellFormed w = true ↔
    (∃ r ∈ opcodeRows, w &&& r.mask = r.matched) ∧ rowNote w = true := by
  simp only [wordWellFormed, Bool.and_eq_true, List.any_eq_true, beq_iff_eq]

/-- A word whose operation code has a row is well formed when its operands match under that row's mask and the note
holds. -/
theorem wordWellFormed_assemble_iff (ho : o.toNat = n) (hrow : rowOfOpcode n = some r) :
    wordWellFormed (assemble o m a d) = true ↔ (m &&& modField r.mask = modField r.matched ∧
        a &&& addrField r.mask = addrField r.matched ∧ d &&& dataField r.mask = dataField r.matched) ∧
      rowNote (assemble o m a d) = true := by
  have hmem : r ∈ opcodeRows := List.mem_of_find?_eq_some hrow
  have hopc : o = opcField r.matched := BitVec.eq_of_toNat_eq (ho.trans (opcode_of_rowOfOpcode hrow).symm)
  have hmatch : assemble o m a d &&& r.mask = r.matched ↔ m &&& modField r.mask = modField r.matched ∧
      a &&& addrField r.mask = addrField r.matched ∧ d &&& dataField r.mask = dataField r.matched := by
    simp only [and_eq_iff_fields, opcField_assemble, modField_assemble, addrField_assemble, dataField_assemble,
      opcField_mask_of_mem hmem, BitVec.and_allOnes, hopc, true_and]
  rw [wordWellFormed_iff, ← hmatch]
  constructor
  · rintro ⟨⟨q, hq, hqmatch⟩, hnote⟩
    have hqr := rowOfOpcode_of_match hq hqmatch
    rw [opcField_assemble, ho, hrow] at hqr
    cases hqr
    exact ⟨hqmatch, hnote⟩
  · rintro ⟨hrmatch, hnote⟩
    exact ⟨⟨r, hmem, hrmatch⟩, hnote⟩

/-- A well-formed word has the operation code of a row. -/
theorem opcode_mem_of_wordWellFormed (h : wordWellFormed (assemble o m a d) = true) :
    o.toNat ∈ opcodeRows.map fun r => (opcField r.matched).toNat := by
  obtain ⟨⟨r, hr, hmatch⟩, -⟩ := wordWellFormed_iff.mp h
  have hopc := opcode_of_rowOfOpcode (rowOfOpcode_of_match hr hmatch)
  rw [opcField_assemble] at hopc
  exact hopc ▸ List.mem_map_of_mem hr

/-! ## The notes of the rows -/

theorem shiftRight40_assemble : (assemble o m a d >>> 40).toNat = o.toNat := by
  have hm := m.isLt
  have ha := a.isLt
  have hd := d.isLt
  rw [BitVec.toNat_ushiftRight, assemble_toNat, Nat.shiftRight_eq_div_pow]
  omega

theorem shiftRight32_assemble_mod : (assemble o m a d >>> 32).toNat % 256 = m.toNat := by
  have hm := m.isLt
  have ha := a.isLt
  have hd := d.isLt
  rw [BitVec.toNat_ushiftRight, assemble_toNat, Nat.shiftRight_eq_div_pow]
  omega

theorem shiftRight24_assemble_mod : (assemble o m a d >>> 24).toNat % 256 = (a.extractLsb' 8 8).toNat := by
  have hd := d.isLt
  rw [BitVec.toNat_ushiftRight, assemble_toNat, BitVec.extractLsb'_toNat]
  simp only [Nat.shiftRight_eq_div_pow]
  omega

/-- K at most 11. -/
theorem rowNote_switch_iff (ho : o.toNat = n) (h : n = 0x10 ∨ n = 0x11 ∨ n = 0x12) :
    rowNote (assemble o m a d) = true ↔ m.toNat ≤ 11 := by
  simp only [rowNote, shiftRight40_assemble, shiftRight32_assemble_mod, ho, if_pos h, decide_eq_true_eq]

/-- An existing page of an existing bank. -/
theorem rowNote_bank_iff (ho : o.toNat = n) (h : n = 0x22 ∨ n = 0x23) :
    rowNote (assemble o m a d) = true ↔
      ∃ b, Bank.ofId? m.toNat = some b ∧ (a.extractLsb' 8 8).toNat < b.pages := by
  have hs : ¬(n = 0x10 ∨ n = 0x11 ∨ n = 0x12) := by omega
  simp only [rowNote, shiftRight40_assemble, shiftRight32_assemble_mod, shiftRight24_assemble_mod, ho, if_neg hs,
    if_pos h]
  cases Bank.ofId? m.toNat <;> simp

/-- SLOT not 0. -/
theorem rowNote_slot_iff (ho : o.toNat = n) (h : n = 0x30 ∨ n = 0x31 ∨ n = 0x32) :
    rowNote (assemble o m a d) = true ↔ 1 ≤ m.toNat := by
  have hs : ¬(n = 0x10 ∨ n = 0x11 ∨ n = 0x12) := by omega
  have hb : ¬(n = 0x22 ∨ n = 0x23) := by omega
  simp only [rowNote, shiftRight40_assemble, shiftRight32_assemble_mod, ho, if_neg hs, if_neg hb, if_pos h,
    decide_eq_true_eq]

/-- The other rows have no note. -/
theorem rowNote_of_other (ho : o.toNat = n) (h : n ∉ [0x10, 0x11, 0x12, 0x22, 0x23, 0x30, 0x31, 0x32]) :
    rowNote (assemble o m a d) = true := by
  simp only [List.mem_cons, List.not_mem_nil, or_false, not_or] at h
  simp only [rowNote, shiftRight40_assemble, ho, h, or_self, if_false]

end Rows

/-- The operation-code map against the table, row by row: the format's acceptance is the row's mask and note. -/
theorem accepts_iff_wordWellFormed (o m : Byte) (a d : Word16) :
    (∃ i, decodeFields o m a d = .ok i) ↔ wordWellFormed (assemble o m a d) = true := by
  unfold decodeFields
  split
  case h_1 ho | h_3 ho =>
    rw [readFormat_accepts_iff, wordWellFormed_assemble_iff ho rfl, rowNote_of_other ho (by decide)]
    simp [modField, addrField, dataField]
  case h_2 ho | h_4 ho =>
    rw [writeFormat_accepts_iff, wordWellFormed_assemble_iff ho rfl, rowNote_of_other ho (by decide)]
    simp [modField, addrField, dataField, and_FF00_eq_zero_iff]
  case h_5 ho | h_6 ho | h_7 ho =>
    rw [switchFormat_accepts_iff, wordWellFormed_assemble_iff ho rfl, rowNote_switch_iff ho (by decide)]
    simp [modField, addrField, dataField, and_FFFE_eq_zero_iff]
  case h_10 ho =>
    rw [queryFormat_accepts_iff, wordWellFormed_assemble_iff ho rfl, rowNote_of_other ho (by decide)]
    simp [modField, addrField, dataField]
  case h_11 ho | h_12 ho =>
    rw [bankFormat_accepts_iff, wordWellFormed_assemble_iff ho rfl, rowNote_bank_iff ho (by decide)]
    simp [modField, addrField, dataField, and_FF00_eq_zero_iff]
  case h_13 ho | h_14 ho | h_15 ho =>
    rw [neededSlot_accepts_iff, wordWellFormed_assemble_iff ho rfl, rowNote_slot_iff ho (by decide)]
    simp [modField, addrField, dataField]
  case h_16 ho =>
    rw [slotFormat_accepts_iff, wordWellFormed_assemble_iff ho rfl, rowNote_of_other ho (by decide)]
    simp [modField, addrField, dataField]
  case h_17 ho | h_18 ho | h_25 ho | h_26 ho =>
    rw [handleFormat_accepts_iff, wordWellFormed_assemble_iff ho rfl, rowNote_of_other ho (by decide)]
    simp [modField, addrField, dataField]
  case h_8 ho | h_9 ho | h_19 ho | h_20 ho | h_21 ho | h_22 ho | h_23 ho | h_24 ho | h_27 ho | h_28 ho | h_29 ho =>
    rw [noOperand_accepts_iff, wordWellFormed_assemble_iff ho rfl, rowNote_of_other ho (by decide)]
    simp [modField, addrField, dataField]
  case h_30 =>
    refine iff_of_false (by rintro ⟨i, h⟩; cases h) fun h => ?_
    have hmem := opcode_mem_of_wordWellFormed h
    simp_all [opcodeRows, opcField]

/-- Settles O3: the word is its four fields, and the map reads these as the table's rows do. -/
theorem decoderAcceptsExactlyTheTableWords : Obligations.DecoderAcceptsExactlyTheTableWords := by
  intro w
  rw [decode, accepts_iff_wordWellFormed, assemble_fields]

/-! ## The refusal of every other word (30_encoding.md R80, R73) -/

/-- Of the step's branches, the one for a word that does not decode. -/
theorem step_of_decode_error {s : State} {r : Request} {rest : List Request} {e : DecodeError}
    (hp : s.pending = r :: rest) (hd : decode r.word = .error e) : step s = refuseWord (s.take r rest) := by
  rw [step, hp]
  dsimp only
  rw [hd]

/-- Settles O7: by O3 such a word does not decode, and refusing it writes the outputs alone. -/
theorem illFormedWordIsRefused : Obligations.IllFormedWordIsRefused := by
  intro s r rest hp hwf
  cases hd : decode r.word with
  | ok i =>
    have hwell := (decoderAcceptsExactlyTheTableWords r.word).mp ⟨i, hd⟩
    exact absurd hwell (by rw [hwf]; decide)
  | error e =>
    rw [step_of_decode_error hp hd]
    rfl

end Machine

/-! ## The word of a map entry (30_encoding.md R75) -/

/-- The fields of a mapped entry do not overlap, so the word is their sum. -/
theorem encode_some_toNat (r : PageRef) :
    (MapEntry.encode (some r)).toNat = 2 ^ 15 + r.bank.id * 2 ^ 8 + r.page.toNat := by
  have hid := r.bank.id_lt
  have hpage := r.page.isLt
  have hbank : (BitVec.ofNat 16 r.bank.id <<< 8).toNat = r.bank.id <<< 8 := by
    rw [BitVec.toNat_shiftLeft, BitVec.toNat_ofNat, Nat.shiftLeft_eq, Nat.shiftLeft_eq]
    omega
  have hlow : r.bank.id <<< 8 < 2 ^ 15 := by
    rw [Nat.shiftLeft_eq]
    omega
  have hhigh : 2 ^ 15 ||| r.bank.id <<< 8 = (2 ^ 7 + r.bank.id) <<< 8 := by
    have hsum := Nat.two_pow_add_eq_or_of_lt hlow 1
    rw [mul_one] at hsum
    rw [← hsum, Nat.shiftLeft_eq, Nat.shiftLeft_eq]
    omega
  calc (MapEntry.encode (some r)).toNat
      = 2 ^ 15 ||| r.bank.id <<< 8 ||| r.page.toNat := by
        rw [MapEntry.encode, BitVec.toNat_or, BitVec.toNat_or, hbank, BitVec.toNat_setWidth,
          Nat.mod_eq_of_lt (by omega)]
        rfl
    _ = (2 ^ 7 + r.bank.id) <<< 8 + r.page.toNat := by rw [hhigh, Nat.shiftLeft_add_eq_or_of_lt hpage]
    _ = 2 ^ 15 + r.bank.id * 2 ^ 8 + r.page.toNat := by
        rw [Nat.shiftLeft_eq]
        omega

/-- Settles O5: each field is read off the word's number. -/
theorem mapEntryWordLayout : Obligations.MapEntryWordLayout := by
  refine ⟨rfl, fun r => ?_⟩
  have hid := r.bank.id_lt
  have hpage := r.page.isLt
  have hword := encode_some_toNat r
  refine ⟨?_, ?_, ?_, ?_, rfl⟩
  · rw [BitVec.getLsbD, Nat.testBit_eq_decide_div_mod_eq, hword, decide_eq_true_eq]
    omega
  · apply BitVec.eq_of_toNat_eq
    rw [BitVec.extractLsb'_toNat, hword, Nat.shiftRight_eq_div_pow]
    change _ = 0
    omega
  · rw [BitVec.extractLsb'_toNat, hword, Nat.shiftRight_eq_div_pow]
    omega
  · apply BitVec.eq_of_toNat_eq
    rw [BitVec.extractLsb'_toNat, hword, Nat.shiftRight_eq_div_pow]
    omega

end Sys2Proof
end

section
/-! Proofs of the statements about the soft-switch registry (40_switches.md R90 to R94). -/

namespace Sys2Proof.Machine

/-! ## When a transaction is accepted (60_exceptions.md R175), and how it ends if it remaps -/

/-- R175 after the first reset: of its cases (1) to (5), (2) is out. -/
theorem accepted_iff_of_booted {i : Instr} {s : State} (hb : s.booted = true) :
    accepted i s = true ↔ i.wellFormed = true ∧ (s.inDispatch = true → allowedInDispatch i = true) ∧
      (isStructural i = true → s.inDispatch = true ∨ s.run ≠ .running) ∧ ownPrecondition s i = true := by
  simp only [accepted, quiescent, hb, Bool.and_eq_true, Bool.or_eq_true, Bool.not_eq_true', decide_eq_true_eq,
    true_or, and_true, and_assoc, ← Bool.not_eq_true, ← imp_iff_not_or]

/-- RECONF's nine steps leave the closed form of 41_mmu.md R113. -/
theorem reconf_eq_remapped (s : State) : s.reconf = s.remapped := by
  rw [State.reconf, readTableOf_eq_closed, writeTableOf_eq_closed, State.remapped]

theorem remapped_eq_self {s : State} (h : s.mapCurrent) : s.remapped = s := by
  obtain ⟨hrt, hwt⟩ := h
  rw [State.remapped, ← hrt, ← hwt]

/-- An accepted transaction that replaces the registry and runs RECONF (R94). -/
theorem exec_replacesSwitches {i : Instr} {s : State} {sw : Switches}
    (he : effect i s.clearEvents = ((s.clearEvents.setSwitches sw).reconf, 0)) (ha : accepted i s = true) :
    exec i s = .next (({ s with sw := sw } : State).remapped.answered 0) := by
  rw [exec_accepted _ (exec_eq_effect i s) ha, he, reconf_eq_remapped]
  rfl

/-! ## SWGET and SWRST -/

/-- Settles O21: SWGET is no structural mutation and is allowed in a dispatch, so it is accepted. -/
theorem swgetAnswersTheSwitch : Obligations.SwgetAnswersTheSwitch := by
  intro s k hb
  have ha : accepted (.swget k) s = true :=
    (accepted_iff_of_booted hb).mpr ⟨rfl, fun _ => rfl, nofun, rfl⟩
  exact exec_accepted (swgetBody k) rfl ha

/-- Settles O24: SWRST's effect replaces the registry by SW_DEFAULT. -/
theorem swrstRestoresTheDefaults : Obligations.SwrstRestoresTheDefaults := by
  intro s hb hd hr
  have ha : accepted .swrst s = true :=
    (accepted_iff_of_booted hb).mpr ⟨rfl, fun h => absurd h (by rw [hd]; decide), fun _ => .inr hr, rfl⟩
  exact exec_replacesSwitches rfl ha

/-! ## SWSET and SWTGL -/

/-- The state SWTGL leaves, the outputs apart (R92). -/
def State.toggled (s : State) (k : Switch) : State := ({ s with sw := s.sw.set k (!s.sw.get k) } : State).remapped

section Quiescent

variable {s : State} (hb : s.booted = true) (hq : s.inDispatch = true ∨ s.run ≠ .running) (k : Switch)
include hb hq

theorem exec_swset (v : Bool) :
    exec (.swset k v) s = .next (({ s with sw := s.sw.set k v } : State).remapped.answered 0) :=
  exec_replacesSwitches rfl ((accepted_iff_of_booted hb).mpr ⟨rfl, fun _ => rfl, fun _ => hq, rfl⟩)

theorem exec_swtgl : exec (.swtgl k) s = .next ((s.toggled k).answered 0) :=
  exec_replacesSwitches rfl ((accepted_iff_of_booted hb).mpr ⟨rfl, fun _ => rfl, fun _ => hq, rfl⟩)

end Quiescent

/-- Settles O22: the registry's update at one switch keeps the others. -/
theorem swsetSetsOneSwitchAndRemaps : Obligations.SwsetSetsOneSwitchAndRemaps := by
  intro s k v hb hq
  exact ⟨s.sw.set k v, Switches.get_set_same _ _ _, fun _ hj => Switches.get_set_other _ _ hj, exec_swset hb hq k v⟩

theorem Switches.toggle_toggle (v : Switches) (k : Switch) :
    (v.set k (!v.get k)).set k (!(v.set k (!v.get k)).get k) = v := by
  rw [get_set_same, Bool.not_not, set_set, set_get]

/-- Inverting a switch twice is no change of the registry, and the later remapping and answer overwrite the earlier. -/
theorem toggled_answered_twice (s : State) (k : Switch) (d e : Word16) :
    (((s.toggled k).answered d).toggled k).answered e = s.remapped.answered e := by
  have hback : ((s.toggled k).answered d).sw.set k (!((s.toggled k).answered d).sw.get k) = s.sw :=
    Switches.toggle_toggle s.sw k
  rw [State.toggled, hback]
  rfl

/-- Settles O23: the second SWTGL meets the same precondition, inverts the switch back and remaps the first registry,
whose tables were current. -/
theorem swtglInvertsOneSwitchAndRemaps : Obligations.SwtglInvertsOneSwitchAndRemaps := by
  intro s k hb hq
  refine ⟨(s.toggled k).answered 0, exec_swtgl hb hq k,
    ⟨s.sw.set k (!s.sw.get k), Switches.get_set_same _ _ _, fun _ hj => Switches.get_set_other _ _ hj, rfl⟩,
    fun hmap => ?_⟩
  have hsecond := exec_swtgl (s := (s.toggled k).answered 0) hb hq k
  rw [hsecond, toggled_answered_twice, remapped_eq_self hmap]

end Sys2Proof.Machine
end

section
/-! Proofs of the statements about the map, its reconfiguration and the bank port (41_mmu.md R113 to R119). -/

namespace Sys2Proof.Machine

/-! ## The closed form (R113) -/

/-- Settles O17: row by row of R113, for either table. -/
theorem reconfigurationEqualsTheClosedForm : Obligations.ReconfigurationEqualsTheClosedForm := fun x _ h =>
  ⟨(readTableOf_entry x h).trans (reconfigure_rt_eq_closedRead x h),
    (writeTableOf_entry x h).trans (reconfigure_wt_eq_closedWrite x h)⟩

/-! ## Entries that name an existing page of a live bank (R114, 10_state.md R16, R17) -/

theorem bank_pages_le (b : Bank) : b.pages ≤ 0xC0 := by
  unfold Bank.pages
  split <;> decide

theorem bankLive_of_ramType (occ : PerSlot Bool) {b : Bank} (h : b.ramType = true) : bankLive occ b = true := by
  cases b with
  | main | aux | lcMain | lcAux | lc2Main | lc2Aux => rfl
  | rom | crom | blank | fw | exp => cases h

/-- A mapped entry that does not dangle: what R114 wants of every page of the read table. -/
def NamesLivePage (occ : PerSlot Bool) (e : MapEntry) : Prop := entryValid occ e = true ∧ e ≠ none

theorem namesLivePage_entry {occ : PerSlot Bool} {b : Bank} {i : Nat} (hl : bankLive occ b = true)
    (hi : i < b.pages) : NamesLivePage occ (entry b i) := by
  have hpage : (BitVec.ofNat 8 i).toNat < b.pages := Nat.lt_of_le_of_lt (Nat.mod_le i _) hi
  exact ⟨Bool.and_eq_true_iff.mpr ⟨decide_eq_true hpage, hl⟩, Option.some_ne_none _⟩

/-- The entry names page `i` of a RAM-type bank that has this page: the only entries a write table may hold (10_state.md
R17 (I-e)). -/
def IsRamEntry (i : Nat) (e : MapEntry) : Prop := ∃ b : Bank, b.ramType = true ∧ i < b.pages ∧ e = entry b i

theorem IsRamEntry.namesLivePage {i : Nat} {e : MapEntry} (h : IsRamEntry i e) (occ : PerSlot Bool) :
    NamesLivePage occ e := by
  obtain ⟨b, hb, hi, rfl⟩ := h
  exact namesLivePage_entry (bankLive_of_ramType occ hb) hi

theorem IsRamEntry.bank_and_page {i : Nat} {r : PageRef} (h : IsRamEntry i (some r)) :
    r.bank.ramType = true ∧ r.page.toNat = i := by
  obtain ⟨b, hb, hi, hr⟩ := h
  obtain rfl := Option.some.inj hr
  have := bank_pages_le b
  exact ⟨hb, Nat.mod_eq_of_lt (by omega)⟩

/-! ### The rows of R113 that show RAM -/

theorem isRamEntry_auxIf (on : Bool) {p : Nat} (h : p ≤ 0xBF) : IsRamEntry p (entry (auxIf on) p) := by
  cases on with
  | false => exact ⟨.main, rfl, Nat.lt_succ_of_le h, rfl⟩
  | true => exact ⟨.aux, rfl, Nat.lt_succ_of_le h, rfl⟩

theorem isRamEntry_closedRam (sw : Switches) (select : Bool) {p : Nat} (h : p ≤ 0xBF) :
    IsRamEntry p (closedRam sw select p) := by
  rw [closedRam_eq]
  split
  · exact isRamEntry_auxIf _ h
  · exact isRamEntry_auxIf _ h

theorem isRamEntry_closedLc (sw : Switches) {p : Nat} (h : 0xD0 ≤ p ∧ p < 256) :
    IsRamEntry (p - 0xD0) (closedLc sw p) := by
  rw [closedLc]
  split
  · next hlow =>
    have hpage : p - 0xD0 < 0x10 := by omega
    cases sw.auxzp with
    | false => exact ⟨.lc2Main, rfl, hpage, rfl⟩
    | true => exact ⟨.lc2Aux, rfl, hpage, rfl⟩
  · have hpage : p - 0xD0 < 0x30 := by omega
    cases sw.auxzp with
    | false => exact ⟨.lcMain, rfl, hpage, rfl⟩
    | true => exact ⟨.lcAux, rfl, hpage, rfl⟩

/-! ### The rows that show the slots and the motherboard's ROM -/

theorem namesLivePage_blank (occ : PerSlot Bool) : NamesLivePage occ (entry .blank 0) :=
  namesLivePage_entry rfl Nat.one_pos

theorem namesLivePage_closedFirmware (x : MapInputs) (n : Slot) : NamesLivePage x.occ (closedFirmware x n) := by
  rw [closedFirmware]
  split
  · have hpage : n.number < 0x10 := by have := n.number_bounds; omega
    exact namesLivePage_entry rfl hpage
  split
  · next hocc => exact namesLivePage_entry (b := .fw n) hocc Nat.one_pos
  · exact namesLivePage_blank x.occ

theorem namesLivePage_closedExpansion (x : MapInputs) {p : Nat} (h : 0xC8 ≤ p ∧ p ≤ 0xCF) :
    NamesLivePage x.occ (closedExpansion x p) := by
  rw [closedExpansion]
  split
  · have hpage : p - 0xC0 < 0x10 := by omega
    exact namesLivePage_entry rfl hpage
  cases x.asl with
  | none => exact namesLivePage_blank x.occ
  | some n =>
    dsimp only
    split
    · next hocc =>
      have hpage : p - 0xC8 < 0x08 := by omega
      exact namesLivePage_entry (b := .exp n) hocc hpage
    · exact namesLivePage_blank x.occ

/-! ### The two tables -/

/-- No page of the read table is unmapped or dangles (R114 (c), (d)). -/
theorem namesLivePage_closedRead (x : MapInputs) {p : Nat} (h : p < 256) : NamesLivePage x.occ (closedRead x p) := by
  rw [closedRead]
  split
  · exact (isRamEntry_auxIf x.sw.auxzp (by omega)).namesLivePage x.occ
  split
  · next hram => exact (isRamEntry_closedRam x.sw x.sw.ramrd hram).namesLivePage x.occ
  split
  · exact namesLivePage_blank x.occ
  split
  · obtain ⟨n, hn⟩ := exists_slot_number (k := p - 0xC0) (by omega)
    rw [← hn, Slot.ofNumber_number]
    exact namesLivePage_closedFirmware x n
  split
  · exact namesLivePage_closedExpansion x (by omega)
  split
  · exact (isRamEntry_closedLc x.sw (by omega)).namesLivePage x.occ
  · have hpage : p - 0xD0 < 0x30 := by omega
    exact namesLivePage_entry rfl hpage

theorem isRamEntry_closedWrite_low (x : MapInputs) {p : Nat} (h : p < 0xC0) : IsRamEntry p (closedWrite x p) := by
  rw [closedWrite]
  split
  · exact isRamEntry_auxIf x.sw.auxzp (by omega)
  · rw [if_pos (by omega)]
    exact isRamEntry_closedRam x.sw x.sw.ramwrt (by omega)

theorem closedWrite_io (x : MapInputs) {p : Nat} (h : 0xC0 ≤ p ∧ p ≤ 0xCF) : closedWrite x p = none := by
  rw [closedWrite, if_neg (by omega), if_neg (by omega), if_pos h.2]

theorem closedWrite_high (x : MapInputs) {p : Nat} (h : 0xD0 ≤ p) :
    closedWrite x p = if x.sw.lcwrite then closedLc x.sw p else none := by
  rw [closedWrite, if_neg (by omega), if_neg (by omega), if_neg (by omega)]

/-- A page of the write table is protected or RAM; below `$C0` it is the RAM page of its own number. -/
theorem closedWrite_none_or_ram (x : MapInputs) {p : Nat} (h : p < 256) :
    closedWrite x p = none ∨ ∃ i, IsRamEntry i (closedWrite x p) ∧ (p < 0xC0 → i = p) := by
  by_cases hlow : p < 0xC0
  · exact .inr ⟨p, isRamEntry_closedWrite_low x hlow, fun _ => rfl⟩
  by_cases hio : p ≤ 0xCF
  · exact .inl (closedWrite_io x (by omega))
  rw [closedWrite_high x (by omega)]
  split
  · exact .inr ⟨p - 0xD0, isRamEntry_closedLc x.sw (by omega), fun hp => absurd hp hlow⟩
  · exact .inl rfl

/-- On `$D0..$FF` LCWRITE alone decides the protection. -/
theorem closedWrite_eq_none_iff (x : MapInputs) {p : Nat} (h : 0xD0 ≤ p ∧ p < 256) :
    closedWrite x p = none ↔ x.sw.lcwrite = false := by
  have hlc : closedLc x.sw p ≠ none := ((isRamEntry_closedLc x.sw h).namesLivePage x.occ).2
  rw [closedWrite_high x h.1]
  cases x.sw.lcwrite with
  | false => exact iff_of_true rfl rfl
  | true => exact iff_of_false hlc nofun

/-- Settles O18: both tables are their closed forms, whose entries are the rows above. -/
theorem mapEntriesNeverDangle : Obligations.MapEntriesNeverDangle := by
  intro x p h
  obtain ⟨hread, hwrite⟩ := reconfigurationEqualsTheClosedForm x p h
  rw [hread, hwrite]
  obtain ⟨hvalid, hmapped⟩ := namesLivePage_closedRead x h
  refine ⟨hvalid, ?_, hmapped, fun h0 h1 => closedWrite_io x ⟨h0, h1⟩,
    fun h0 => closedWrite_eq_none_iff x ⟨h0, h⟩, fun r hr => ?_⟩
  · rcases closedWrite_none_or_ram x h with hnone | ⟨i, hram, -⟩
    · rw [hnone]; rfl
    · exact (hram.namesLivePage x.occ).1
  · rcases closedWrite_none_or_ram x h with hnone | ⟨i, hram, hi⟩
    · rw [hnone] at hr; cases hr
    · rw [hr] at hram
      obtain ⟨hbank, hpage⟩ := hram.bank_and_page
      exact ⟨hbank, fun hp => hpage.trans (hi hp)⟩

/-! ## The bank port (R117, R118) -/

/-- A bank is absent exactly when it is a card's bank and the card's slot is empty (U2). -/
theorem bankAbsent_iff {s : State} {b : Bank} :
    s.bankAbsent b = true ↔ ∃ n, (b = .fw n ∨ b = .exp n) ∧ s.occ.get n = false := by
  cases b <;> simp [State.bankAbsent, Bank.slot?]

@[simp] theorem bankAbsent_clearEvents (s : State) (b : Bank) : s.clearEvents.bankAbsent b = s.bankAbsent b := rfl

/-- BANKRD is accepted after the first reset, in any RUN and inside a dispatch too. -/
theorem accepted_bankrd {s : State} {b : Bank} {p : Byte} (o : Byte) (hb : s.booted = true)
    (hp : p.toNat < b.pages) : accepted (.bankrd b p o) s = true :=
  (accepted_iff_of_booted hb).mpr ⟨decide_eq_true hp, fun _ => rfl, nofun, rfl⟩

/-- Settles O25: BANKRD is accepted, and answers the cell or, of an absent bank, a free value. -/
theorem bankrdAnswersTheCell : Obligations.BankrdAnswersTheCell := by
  intro s b p o hb hp
  rw [exec_accepted (bankrdBody b p o) rfl (accepted_bankrd o hb hp), bankrdBody, bankAbsent_clearEvents]
  refine ⟨fun hocc => ?_, fun n hn hempty => ?_⟩
  · have hpresent : s.bankAbsent b ≠ true := fun habsent => by
      obtain ⟨n, hn, hempty⟩ := bankAbsent_iff.mp habsent
      rw [hocc n hn] at hempty
      cases hempty
    rw [if_neg hpresent]
    rfl
  · rw [if_pos (bankAbsent_iff.mpr ⟨n, hn, hempty⟩)]
    exact ⟨Config.emptySlotByte s.fresh, rfl⟩

/-- BANKWR is accepted outside a dispatch, in any RUN and before the first reset too. -/
theorem accepted_bankwr {s : State} {b : Bank} {p : Byte} (o v : Byte) (hd : s.inDispatch = false)
    (hp : p.toNat < b.pages) (hb : b ≠ .blank) : accepted (.bankwr b p o v) s = true := by
  simp [accepted, Instr.wellFormed, allowedBeforeReset, isStructural, ownPrecondition, hd, hp, hb]

/-- Settles O26: BANKWR is accepted, and its effect is the store of one cell. -/
theorem bankwrStoresOneCell : Obligations.BankwrStoresOneCell := by
  intro s b p o v hd hp hb
  exact ⟨_, exec_accepted (bankwrBody b p o v) rfl (accepted_bankwr o v hd hp hb), cell_storeCell_same s p o v hb,
    fun _ _ _ h => cell_storeCell_other s v h, rfl⟩

/-! ## RECONF and MAPQ (R116, R119) -/

/-- 60_exceptions.md R175 after the first reset and outside a dispatch: (2) and (3) are out. -/
theorem accepted_iff_at_top {i : Instr} {s : State} (hb : s.booted = true) (hd : s.inDispatch = false) :
    accepted i s = true ↔
      i.wellFormed = true ∧ (isStructural i = true → s.run ≠ .running) ∧ ownPrecondition s i = true := by
  simp [accepted_iff_of_booted hb, hd]

/-- Settles O19: RECONF is accepted when quiescent, and its effect is both tables in closed form. -/
theorem reconfRebuildsBothTables : Obligations.ReconfRebuildsBothTables := by
  intro s hb hd hr
  have ha : accepted .reconf s = true := (accepted_iff_at_top hb hd).mpr ⟨rfl, fun _ => hr, rfl⟩
  rw [exec_accepted (fun s => (s.reconf, 0)) rfl ha, reconf_eq_remapped]
  rfl

/-- Settles O20: MAPQ is no structural mutation, so outside a dispatch it is accepted, for either table. -/
theorem mapqAnswersTheEntryWord : Obligations.MapqAnswersTheEntryWord := by
  intro s p hb hd
  have ha (tbl : MapTable) : accepted (.mapq tbl p) s = true := (accepted_iff_at_top hb hd).mpr ⟨rfl, nofun, rfl⟩
  exact ⟨exec_accepted (mapqBody .readTable p) rfl (ha .readTable),
    exec_accepted (mapqBody .writeTable p) rfl (ha .writeTable)⟩

end Sys2Proof.Machine
end

section
/-! Rules about the access transactions (42_access.md R120 to R127): their acceptance, what an access does with a
listener filed and without, where a write stores, and what an access may change. -/

namespace Sys2Proof.Machine

/-! ## Acceptance (60_exceptions.md R175) -/

/-- The SYNC bit of an access; the other transactions have none. -/
def accessSync : Instr → Option Bool
  | .rd _ _ sync _ | .wr _ sync _ _ | .rdw _ _ sync _ | .wrw _ sync _ _ => some sync
  | _ => none

/-- After the first reset an access is accepted at top level, and with SYNC = 0 inside a dispatch too; so it has its
effect. -/
theorem exec_of_accessSync {i : Instr} {sync : Bool} {s : State} (hi : accessSync i = some sync)
    (hb : s.booted = true) (hd : s.inDispatch = false ∨ sync = false) :
    exec i s = .next ((effect i s.clearEvents).1.respond (okResponse (effect i s.clearEvents).2)) := by
  have hmove : s.inDispatch = true → (!sync) = true := fun h => by
    rcases hd with hd | rfl
    · rw [h] at hd; cases hd
    · rfl
  refine exec_accepted _ (exec_eq_effect i s) ((accepted_iff_of_booted hb).mpr ?_)
  cases i with
  | rd | wr | rdw | wrw => cases hi; exact ⟨rfl, hmove, nofun, rfl⟩
  | _ => cases hi

/-! ## Reads and writes with a listener filed -/

theorem isEmpty_bucket_of_ne {s : State} {addr : Addr} (h : s.bucket addr ≠ []) :
    (s.bucket addr).isEmpty = false := by
  rwa [List.isEmpty_eq_false_iff]

/-- With a listener filed a read is its chain, begun with the selected byte, in the I/O hole too (R120, R126). -/
theorem readByte_of_listeners (kind : ReadKind) (evt sync : Bool) {addr : Addr} {s : State} (h : s.bucket addr ≠ []) :
    readByte kind evt sync addr s =
      syncWrap sync (dispatch (accessKindOf kind) addr (s.selectedByte addr) (s.selectedByte addr)) s := by
  simp only [readByte, isEmpty_bucket_of_ne h, Bool.not_false, Bool.or_true, if_true, Bool.false_eq_true, if_false,
    ite_self, State.selectedByte]

/-- The old byte of a write is R121's. -/
theorem oldByte_eq_replacedByte (s : State) (addr : Addr) :
    s.oldByte (s.writeEntry (pageOf addr)) (s.readEntry (pageOf addr)) (offsetOf addr) = s.replacedByte addr := by
  simp only [State.oldByte, State.replacedByte]
  cases s.writeEntry (pageOf addr) with
  | some w => rfl
  | none => cases s.readEntry (pageOf addr) <;> rfl

theorem writeChain_of_listeners (evt sync : Bool) {addr : Addr} (value : Byte) {s : State} (h : s.bucket addr ≠ []) :
    writeChain evt sync addr value s = syncWrap sync (dispatch .write addr (s.replacedByte addr) value) s := by
  simp only [writeChain, isEmpty_bucket_of_ne h, Bool.not_false, Bool.true_or, if_true, oldByte_eq_replacedByte]

/-- SYNCWRAP's body runs in the state the chain of an access starts in; after it only RUN and the cards
change (R127). -/
theorem syncWrap_clearEvents {α : Type} (sync : Bool) (body : State → State × α) (s : State) :
    syncWrap sync body s.clearEvents =
      ({ (body (s.chainStart sync)).1 with
          run := (syncWrap sync body s.clearEvents).1.run
          cardrun := (syncWrap sync body s.clearEvents).1.cardrun
          suspset := (syncWrap sync body s.clearEvents).1.suspset },
        (body (s.chainStart sync)).2) := by
  cases sync with
  | false => rfl
  | true =>
    simp only [syncWrap, if_true, State.resumeRun]
    split
    · split <;> rfl
    · rfl

/-! ## Reads and writes without listeners -/

/-- SUSPEND and RESUME of a Running machine give RUN back (45_scheduler.md R162, R163). -/
theorem resumeRun_suspendRun_of_running {s : State} (h : s.run = .running) :
    ∃ c u, s.suspendRun.resumeRun = s.withCards c u := by
  refine ⟨s.suspendRun.resumeRun.cardrun, s.suspendRun.resumeRun.suspset, ?_⟩
  cases s
  cases h
  rfl

/-- SUSPEND of a machine that does not run leaves RUN alone (45_scheduler.md R161, R163). -/
theorem suspendRun_of_not_running {s : State} (h : s.run ≠ .running) : ∃ c u, s.suspendRun = s.withCards c u := by
  refine ⟨s.suspendRun.cardrun, s.suspendRun.suspset, ?_⟩
  rw [State.suspendRun, State.pauseRun, if_neg h]
  rfl

/-- An empty chain changes at most the records of the cards, and those by its SUSPEND and RESUME alone (R127). -/
theorem syncWrap_dispatch_empty (sync : Bool) (kind : AccessKind) {addr : Addr} (old new : Byte) {s : State}
    (h : s.bucket addr = []) :
    ∃ c u, syncWrap sync (dispatch kind addr old new) s = (s.withCards c u, new) ∧
      (sync = false → c = s.cardrun ∧ u = s.suspset) := by
  cases sync with
  | false => exact ⟨s.cardrun, s.suspset, dispatch_empty kind addr old new s h, fun _ => ⟨rfl, rfl⟩⟩
  | true =>
    have hchain : dispatch kind addr old new s.suspendRun = (s.suspendRun, new) :=
      dispatch_empty kind addr old new s.suspendRun (by rw [bucket_suspendRun, h])
    simp only [syncWrap, if_true, hchain, State.wasRunning, decide_eq_true_eq]
    split
    · next hr =>
      obtain ⟨c, u, hcu⟩ := resumeRun_suspendRun_of_running hr
      exact ⟨c, u, by rw [hcu], nofun⟩
    · next hr =>
      obtain ⟨c, u, hcu⟩ := suspendRun_of_not_running hr
      exact ⟨c, u, by rw [hcu], nofun⟩

/-- A read in whose bucket no listener is gives the plain byte; its empty chain, if EVT starts one off the I/O hole,
shows in the records of the cards at most (R120, R125, R126). -/
theorem readByte_without_listeners (kind : ReadKind) (evt sync : Bool) {addr : Addr} {s : State}
    (h : s.bucket addr = []) :
    ∃ c u, readByte kind evt sync addr s = (s.withCards c u, s.plainRead addr) ∧
      ((evt = false ∨ sync = false ∨ pageOf addr = ioPage) → c = s.cardrun ∧ u = s.suspset) := by
  cases evt with
  | false => exact ⟨s.cardrun, s.suspset, readByte_plain kind sync addr s h, fun _ => ⟨rfl, rfl⟩⟩
  | true =>
    simp only [readByte, State.plainRead, h, List.isEmpty_nil, if_true, Bool.true_or]
    split
    · exact ⟨s.cardrun, s.suspset, rfl, fun _ => ⟨rfl, rfl⟩⟩
    · next hio =>
      obtain ⟨c, u, hcu, hkept⟩ := syncWrap_dispatch_empty sync (accessKindOf kind)
        (s.selectedByte addr) (s.selectedByte addr) h
      exact ⟨c, u, hcu, by simpa [hio] using hkept⟩

/-- A write in whose bucket no listener is stores its value; its empty chain shows likewise (R121, R125, R126). -/
theorem writeByte_without_listeners (evt sync : Bool) {addr : Addr} (value : Byte) {s : State}
    (h : s.bucket addr = []) :
    ∃ c u, writeByte evt sync addr value s =
        ((s.withCards c u).storeThrough (s.writeEntry (pageOf addr)) (offsetOf addr) value, s.replacedByte addr) ∧
      ((evt = false ∨ sync = false ∨ pageOf addr = ioPage) → c = s.cardrun ∧ u = s.suspset) := by
  suffices hchain : ∃ c u, writeChain evt sync addr value s = (s.withCards c u, value) ∧
      ((evt = false ∨ sync = false ∨ pageOf addr = ioPage) → c = s.cardrun ∧ u = s.suspset) by
    obtain ⟨c, u, hcu, hkept⟩ := hchain
    exact ⟨c, u, by rw [writeByte_eq, hcu, oldByte_eq_replacedByte], hkept⟩
  simp only [writeChain, oldByte_eq_replacedByte]
  split
  · next hruns =>
    obtain ⟨c, u, hcu, hkept⟩ := syncWrap_dispatch_empty sync .write (s.replacedByte addr) value h
    simp only [h, List.isEmpty_nil, Bool.not_true, Bool.false_or, Bool.and_eq_true, decide_eq_true_eq] at hruns
    obtain ⟨hio, hevt⟩ := hruns
    exact ⟨c, u, hcu, by simpa [hio, hevt] using hkept⟩
  · exact ⟨s.cardrun, s.suspset, rfl, fun _ => ⟨rfl, rfl⟩⟩

/-! ## Where a write stores (20_memory.md R44) -/

theorem cell_storeThrough_of_destination (s : State) {w : MapEntry} {addr : Addr} {b : Bank} {p o : Byte} (v : Byte)
    (h : isDestination w addr b p o) (hb : b ≠ .blank) : (s.storeThrough w (offsetOf addr) v).cell b p o = v := by
  obtain ⟨rfl, rfl⟩ := h
  exact cell_storeThrough_same s ⟨b, p⟩ (offsetOf addr) v hb

theorem cell_storeThrough_of_not_destination (s : State) {w : MapEntry} {addr : Addr} {b : Bank} {p o : Byte}
    (v : Byte) (h : ¬ isDestination w addr b p o) :
    (s.storeThrough w (offsetOf addr) v).cell b p o = s.cell b p o :=
  cell_storeThrough_other s w (offsetOf addr) v b p o h

/-- Whatever its listeners do, a write leaves every cell but its destination as it was. -/
theorem writeByte_cell (evt sync : Bool) {addr : Addr} (value : Byte) {s : State} {b : Bank} {p o : Byte}
    (h : ¬ isDestination (s.writeEntry (pageOf addr)) addr b p o) :
    (writeByte evt sync addr value s).1.cell b p o = s.cell b p o := by
  rw [writeByte_eq, cell_storeThrough_of_not_destination _ _ h]
  exact (writeChain_frame evt sync addr value s).cell b p o

/-- A store changes memory at most. -/
theorem storeThrough_eq (s : State) (w : MapEntry) (o v : Byte) :
    s.storeThrough w o v = { s with mem := (s.storeThrough w o v).mem } := by
  cases w <;> rfl

@[simp] theorem bucket_storeThrough (s : State) (w : MapEntry) (o v : Byte) (addr : Addr) :
    (s.storeThrough w o v).bucket addr = s.bucket addr := by
  cases w <;> rfl

@[simp] theorem writeEntry_storeThrough (s : State) (w : MapEntry) (o v : Byte) (i : Nat) :
    (s.storeThrough w o v).writeEntry i = s.writeEntry i := by
  cases w <;> rfl

theorem withCards_storeThrough (s : State) (c u : PerSlot Bool) (w : MapEntry) (o v : Byte) :
    (s.storeThrough w o v).withCards c u = (s.withCards c u).storeThrough w o v := by
  cases w <;> rfl

theorem cardsKept_storeThrough (s : State) (w : MapEntry) (o v : Byte) : cardsKept s (s.storeThrough w o v) := by
  cases w <;> exact ⟨rfl, rfl⟩

/-- Two addresses in a row never select the same cell. -/
theorem offsetOf_succ_ne (addr : Addr) : offsetOf (addr + 1) ≠ offsetOf addr := by
  rw [offsetOf, offsetOf]
  bv_omega

theorem not_isDestination_of_succ {w w' : MapEntry} {addr : Addr} {b : Bank} {p o : Byte}
    (h : isDestination w' (addr + 1) b p o) : ¬ isDestination w addr b p o := by
  obtain ⟨-, hsucc⟩ := h
  rintro ⟨-, ho⟩
  exact offsetOf_succ_ne addr (hsucc.symm.trans ho)

/-! ## What an access may change -/

/-- The parts of the state that `accessFrame` lists. -/
def State.accessPart (s : State) :=
  (s.occ, s.lreg, s.pidx, s.ridx, s.run, s.divcnt, s.booted, s.inDispatch, s.pending, s.params, s.env, s.ramEpoch)

theorem accessFrame_iff {s t : State} : accessFrame s t ↔ t.accessPart = s.accessPart := by
  simp only [accessFrame, State.accessPart, Prod.mk.injEq]

theorem AccessFrame.accessFrame {s t : State} (h : AccessFrame s t) : accessFrame s t :=
  ⟨h.occ, h.lreg, h.pidx, h.ridx, h.run, h.divcnt, h.booted, h.inDispatch, h.pending, h.params, h.env, h.ramEpoch⟩

/-- RUN is as it was; and of a Running machine with no card recorded the cards are too (42_access.md R127). -/
def schedulerRestored (s t : State) : Prop :=
  t.run = s.run ∧
    (s.run = .running → s.suspset = PerSlot.allOff → t.cardrun = s.cardrun ∧ t.suspset = PerSlot.allOff)

/-- What an access with this SYNC bit does to everything but memory and what its callbacks change. -/
structure AccessEffect (sync : Bool) (s t : State) : Prop where
  frame : accessFrame s t
  cards : sync = false → cardsKept s t
  scheduler : sync = true → schedulerRestored s t

theorem AccessEffect.refl (sync : Bool) (s : State) : AccessEffect sync s s :=
  ⟨(AccessFrame.refl s).accessFrame, fun _ => ⟨rfl, rfl⟩, fun _ => ⟨rfl, fun _ h => ⟨rfl, h⟩⟩⟩

theorem AccessEffect.trans {sync : Bool} {s t u : State} (h : AccessEffect sync s t) (k : AccessEffect sync t u) :
    AccessEffect sync s u := by
  refine ⟨accessFrame_iff.mpr ((accessFrame_iff.mp k.frame).trans (accessFrame_iff.mp h.frame)), fun hs => ?_,
    fun hs => ?_⟩
  · obtain ⟨hcard, hsusp⟩ := h.cards hs
    obtain ⟨kcard, ksusp⟩ := k.cards hs
    exact ⟨kcard.trans hcard, ksusp.trans hsusp⟩
  · obtain ⟨hrun, hcards⟩ := h.scheduler hs
    obtain ⟨krun, kcards⟩ := k.scheduler hs
    refine ⟨krun.trans hrun, fun hr ho => ?_⟩
    obtain ⟨hcard, hsusp⟩ := hcards hr ho
    obtain ⟨kcard, ksusp⟩ := kcards (hrun.trans hr) hsusp
    exact ⟨kcard.trans hcard, ksusp⟩

/-- With no card recorded before, RESUME starts exactly the cards SUSPEND paused (45_scheduler.md R162, R163). -/
theorem resume_of_suspended {s t : State} (hc : t.cardrun = s.suspendRun.cardrun)
    (hu : t.suspset = s.suspendRun.suspset) (hr : t.run = .paused) (ho : s.suspset = PerSlot.allOff) :
    t.resumeRun.cardrun = s.cardrun ∧ t.resumeRun.suspset = PerSlot.allOff := by
  constructor
  · apply PerSlot.ext_get
    intro n
    have hpaused : s.willSuspend n = true → s.cardrun.get n = true := fun h => (Bool.and_eq_true_iff.mp h).2
    rw [resumeRun_cardrun, if_pos hr, hu, hc, suspendRun_suspset, suspendRun_cardrun, ho, PerSlot.get_allOff]
    cases hw : s.willSuspend n with
    | false => simp
    | true => simp [hpaused hw]
  · rw [State.resumeRun, if_pos hr]

theorem syncWrap_dispatch_effect (sync : Bool) (kind : AccessKind) (addr : Addr) (old new : Byte) (s : State) :
    AccessEffect sync s (syncWrap sync (dispatch kind addr old new) s).1 := by
  have hframe := syncWrap_frame sync _ s fun t => dispatch_frame kind addr old new t
  refine ⟨hframe.accessFrame, ?_, ?_⟩
  · rintro rfl
    have hchain := dispatch_frame kind addr old new s
    exact ⟨hchain.cardrun, hchain.suspset⟩
  · rintro rfl
    refine ⟨hframe.run, fun hr ho => ?_⟩
    have hchain := dispatch_frame kind addr old new s.suspendRun
    have hpaused : s.suspendRun.run = .paused := by rw [suspendRun_run, if_pos hr]
    simp only [syncWrap, if_true, State.wasRunning, hr, decide_true]
    exact resume_of_suspended hchain.cardrun hchain.suspset (hchain.run.trans hpaused) ho

theorem readByte_effect (kind : ReadKind) (evt sync : Bool) (addr : Addr) (s : State) :
    AccessEffect sync s (readByte kind evt sync addr s).1 := by
  simp only [readByte]
  split
  · split
    · exact .refl sync s
    · exact syncWrap_dispatch_effect sync _ _ _ _ s
  · split
    · exact syncWrap_dispatch_effect sync _ _ _ _ s
    · exact .refl sync s

theorem writeByte_effect (evt sync : Bool) (addr : Addr) (value : Byte) (s : State) :
    AccessEffect sync s (writeByte evt sync addr value s).1 := by
  have hchain : AccessEffect sync s (writeChain evt sync addr value s).1 := by
    simp only [writeChain]
    split
    · exact syncWrap_dispatch_effect sync _ _ _ _ s
    · exact .refl sync s
  rw [writeByte_eq, storeThrough_eq]
  exact ⟨hchain.frame, hchain.cards, hchain.scheduler⟩

/-- All four accesses. -/
theorem effect_of_access {i : Instr} {sync : Bool} (hi : accessSync i = some sync) (s : State) :
    AccessEffect sync s (effect i s).1 := by
  cases i with
  | rd kind evt y addr => cases hi; exact readByte_effect kind evt sync addr s
  | wr evt y addr v => cases hi; exact writeByte_effect evt sync addr v s
  | rdw kind evt y addr =>
    cases hi; exact (readByte_effect kind evt sync addr s).trans (readByte_effect kind evt sync _ _)
  | wrw evt y addr d =>
    cases hi; exact (writeByte_effect evt sync addr _ s).trans (writeByte_effect evt sync _ _ _)
  | _ => cases hi

end Sys2Proof.Machine
end

section
/-! Proofs of the statements about the access transactions (42_access.md R120 to R128). -/

namespace Sys2Proof.Machine

/-! ## Every access (R120 to R123, R127) -/

/-- An access completes, whatever its address. -/
theorem exec_access_completes {i : Instr} {sync : Bool} {s : State} (hi : accessSync i = some sync)
    (hb : s.booted = true) (hd : s.inDispatch = false ∨ sync = false) :
    ∃ t, exec i s = .next t ∧ t.response.status = .ok ∧ accessFrame s t ∧ (sync = false → cardsKept s t) :=
  have heffect := effect_of_access hi s.clearEvents
  ⟨_, exec_of_accessSync hi hb hd, rfl, heffect.frame, heffect.cards⟩

/-- Settles O27: each access is accepted, and keeps what its chain and its store keep; the reads are not among the
transactions that change cells (20_memory.md R52). -/
theorem accessIsNeverRefusedForItsAddress : Obligations.AccessIsNeverRefusedForItsAddress := by
  intro s sync hb hd
  refine ⟨fun kind evt addr => ?_, fun evt addr v => exec_access_completes rfl hb hd, fun kind evt addr => ?_,
    fun evt addr d => exec_access_completes rfl hb hd⟩
  · obtain ⟨t, ht, hok, hframe, hcards⟩ := exec_access_completes (i := .rd kind evt sync addr) rfl hb hd
    exact ⟨t, ht, hok, hframe, hcards,
      onlyTheListedTransactionsChangeCells _ s t ht nofun nofun nofun nofun nofun nofun nofun nofun⟩
  · obtain ⟨t, ht, hok, hframe, hcards⟩ := exec_access_completes (i := .rdw kind evt sync addr) rfl hb hd
    exact ⟨t, ht, hok, hframe, hcards,
      onlyTheListedTransactionsChangeCells _ s t ht nofun nofun nofun nofun nofun nofun nofun nofun⟩

/-- Accepted or refused, an access with SYNC = 1 gives the scheduler back. -/
theorem schedulerRestored_of_exec {i : Instr} {s t : State} (hi : accessSync i = some true)
    (h : exec i s = .next t) : schedulerRestored s t := by
  rw [exec_eq_effect] at h
  rcases transact_cases h with ⟨-, ht⟩ | ⟨-, ht⟩
  · cases ht
    exact (effect_of_access hi s.clearEvents).scheduler rfl
  · cases ht
    exact (AccessEffect.refl true s.clearEvents).scheduler rfl

/-- Settles O35: SYNCWRAP's RESUME undoes its SUSPEND, byte by byte of a word. -/
theorem syncAccessRestoresTheScheduler : Obligations.SyncAccessRestoresTheScheduler := by
  rintro s t addr evt (⟨kind, h⟩ | ⟨v, h⟩ | ⟨kind, h⟩ | ⟨d, h⟩)
  · exact schedulerRestored_of_exec (i := .rd kind evt true addr) rfl h
  · exact schedulerRestored_of_exec (i := .wr evt true addr v) rfl h
  · exact schedulerRestored_of_exec (i := .rdw kind evt true addr) rfl h
  · exact schedulerRestored_of_exec (i := .wrw evt true addr d) rfl h

/-! ## Bytes without listeners (R120, R121) -/

/-- Settles O28: the empty chain keeps the fetched byte, and shows in the records of the cards at most. -/
theorem readWithoutListenersFetchesThroughTheMap : Obligations.ReadWithoutListenersFetchesThroughTheMap := by
  intro s kind evt sync addr hb hd hbucket
  obtain ⟨c, u, hread, hcards⟩ := readByte_without_listeners kind evt sync (s := s.clearEvents) hbucket
  refine ⟨_, exec_of_accessSync (i := .rd kind evt sync addr) rfl hb hd, ?_⟩
  simp only [effect, rdBody, hread]
  exact ⟨rfl, hcards⟩

/-- Settles O29: the value is stored through the entry of the address, and the old byte answered. -/
theorem writeWithoutListenersStoresOneCell : Obligations.WriteWithoutListenersStoresOneCell := by
  intro s evt sync addr value hb hd hbucket
  obtain ⟨c, u, hwrite, hcards⟩ := writeByte_without_listeners evt sync value (s := s.clearEvents) hbucket
  refine ⟨_, exec_of_accessSync (i := .wr evt sync addr value) rfl hb hd, ?_⟩
  simp only [effect, wrBody, hwrite]
  refine ⟨fun b p o h hblank => cell_storeThrough_of_destination _ value h hblank,
    fun b p o h => cell_storeThrough_of_not_destination _ value h, ?_, ?_⟩
  · rw [storeThrough_eq]
    rfl
  · rw [storeThrough_eq]
    exact hcards

/-! ## Bytes with a listener filed (R120, R121, R124) -/

/-- Settles O30: the chain's value is answered or stored, through the entries the access sampled before it. -/
theorem accessesTakeTheChainValueThroughTheSampledEntry :
    Obligations.AccessesTakeTheChainValueThroughTheSampledEntry := by
  intro s evt sync addr hb hd
  refine ⟨fun kind h => ⟨_, exec_of_accessSync (i := .rd kind evt sync addr) rfl hb hd, ?_⟩,
    fun value => ⟨_, exec_of_accessSync (i := .wr evt sync addr value) rfl hb hd,
      fun b p o h => writeByte_cell evt sync value (s := s.clearEvents) h,
      congrArg (fun old => okResponse (zext16 old)) (oldByte_eq_replacedByte s.clearEvents addr), fun h => ?_⟩⟩
  · simp only [effect, rdBody]
    rw [readByte_of_listeners kind evt sync (s := s.clearEvents) h, syncWrap_clearEvents]
    rfl
  · have hchain := writeChain_of_listeners evt sync value (s := s.clearEvents) h
    rw [syncWrap_clearEvents] at hchain
    simp only [effect, wrBody, writeByte_eq, hchain]
    refine ⟨fun b p o hdest hblank => cell_storeThrough_of_destination _ _ hdest hblank, ?_⟩
    rw [storeThrough_eq]
    rfl

/-! ## Words (R122, R123) -/

theorem lowByte_eq (d : Word16) : lowByte d = d.extractLsb' 0 8 := by
  rw [lowByte]
  ext i hi
  simp

theorem highByte_eq (d : Word16) : highByte d = d.extractLsb' 8 8 := by
  rw [highByte]
  ext i hi
  simp

theorem lowByte_zext16 (b : Byte) : (zext16 b).extractLsb' 0 8 = b := by
  rw [← lowByte_eq, lowByte, zext16, BitVec.setWidth_setWidth_of_le _ (by decide), BitVec.setWidth_eq]

/-- An access after an access is accepted too, and starts where the first left the state. -/
theorem exec_access_after_access {i j : Instr} {sync : Bool} {s : State} (hi : accessSync i = some sync)
    (hj : accessSync j = some sync) (hb : s.booted = true) (hd : s.inDispatch = false ∨ sync = false) (r : Response) :
    let mid := (effect i s.clearEvents).1.respond r
    exec j mid = .next ((effect j mid.clearEvents).1.respond (okResponse (effect j mid.clearEvents).2)) := by
  obtain ⟨-, -, -, -, -, -, hbooted, hdispatch, -⟩ := (effect_of_access hi s.clearEvents).frame
  exact exec_of_accessSync hj (hbooted.trans hb) (hd.imp_left hdispatch.trans)

/-- The second byte of a word is accessed in the state the first leaves; the port takes the events and the answer of the
first away before the second, which does not see the difference (20_memory.md R49). -/
theorem second_access_at_port {body : State → State × Byte} {sync : Bool}
    (houtputs : ∀ e r d s, body (State.outputs e r d s) = ((body s).1.outputs e r d, (body s).2))
    (heffect : ∀ s, AccessEffect sync s (body s).1) (first : State) (r : Response) :
    body first =
      ({ (body (first.respond r).clearEvents).1 with
          events := first.events ++ (body (first.respond r).clearEvents).1.events
          response := first.response },
        (body (first.respond r).clearEvents).2) := by
  have hfirst : first = (first.respond r).clearEvents.outputs first.events first.response first.divcnt := by
    simp [State.outputs, State.veil, State.clearEvents, State.respond]
  obtain ⟨-, -, -, -, -, hdivcnt, -⟩ := (heffect (first.respond r).clearEvents).frame
  calc body first
      = body ((first.respond r).clearEvents.outputs first.events first.response first.divcnt) := by rw [← hfirst]
    _ = _ := by
        rw [houtputs, show first.divcnt = _ from hdivcnt.symm]
        rfl

/-- Without listeners the two bytes of a word are the plain ones, and the empty chains show in the records of the
cards at most. -/
theorem rdwBody_without_listeners (kind : ReadKind) (evt sync : Bool) {addr : Addr} {s : State}
    (hlo : s.bucket addr = []) (hhi : s.bucket (addr + 1) = []) :
    ∃ c u, rdwBody kind evt sync addr s = (s.withCards c u, s.plainRead (addr + 1) ++ s.plainRead addr) ∧
      ((evt = false ∨ sync = false) → c = s.cardrun ∧ u = s.suspset) := by
  obtain ⟨c, u, hread, hcards⟩ := readByte_without_listeners kind evt sync hlo
  obtain ⟨c', u', hread', hcards'⟩ :=
    readByte_without_listeners kind evt sync (addr := addr + 1) (s := s.withCards c u) hhi
  refine ⟨c', u', ?_, fun hempty => ?_⟩
  · simp only [rdwBody, nextAddr, hread, hread']
    rfl
  · obtain ⟨rfl, rfl⟩ := hcards (hempty.imp_right .inl)
    exact hcards' (hempty.imp_right .inl)

/-- Without listeners the two bytes of a word are stored through the entries of their pages, likewise. -/
theorem wrwBody_without_listeners (evt sync : Bool) {addr : Addr} (data : Word16) {s : State}
    (hlo : s.bucket addr = []) (hhi : s.bucket (addr + 1) = []) :
    ∃ c u, wrwBody evt sync addr data s =
        (((s.withCards c u).storeThrough (s.writeEntry (pageOf addr)) (offsetOf addr) (lowByte data)).storeThrough
          (s.writeEntry (pageOf (addr + 1))) (offsetOf (addr + 1)) (highByte data), 0) ∧
      ((evt = false ∨ sync = false) → c = s.cardrun ∧ u = s.suspset) := by
  obtain ⟨c, u, hwrite, hcards⟩ := writeByte_without_listeners evt sync (lowByte data) hlo
  obtain ⟨c', u', hwrite', hcards'⟩ := writeByte_without_listeners evt sync (addr := addr + 1) (highByte data)
    (s := (s.withCards c u).storeThrough (s.writeEntry (pageOf addr)) (offsetOf addr) (lowByte data))
    ((bucket_storeThrough ..).trans hhi)
  obtain ⟨hcardrun, hsuspset⟩ := cardsKept_storeThrough (s.withCards c u) (s.writeEntry (pageOf addr)) (offsetOf addr)
    (lowByte data)
  refine ⟨c', u', ?_, fun hempty => ?_⟩
  · simp only [wrwBody, nextAddr, hwrite, hwrite', withCards_storeThrough, writeEntry_storeThrough]
    rfl
  · obtain ⟨rfl, rfl⟩ := hcards (hempty.imp_right .inl)
    rw [hcardrun, hsuspset] at hcards'
    exact hcards' (hempty.imp_right .inl)

/-- Settles O31: both bytes read at the port, then the two plain bytes. -/
theorem wordReadIsLittleEndian : Obligations.WordReadIsLittleEndian := by
  intro s kind evt sync addr hb hd
  have hword := exec_of_accessSync (i := .rdw kind evt sync addr) rfl hb hd
  refine ⟨⟨_, _, exec_of_accessSync (i := .rd kind evt sync addr) rfl hb hd,
    exec_access_after_access (i := .rd kind evt sync addr) (j := .rd kind evt sync (addr + 1)) rfl rfl hb hd _, ?_⟩,
    fun hlo hhi => ⟨_, hword, ?_⟩⟩
  · rw [hword]
    simp only [effect, rdBody, rdwBody, nextAddr]
    rw [second_access_at_port (fun _ _ _ => readByte_outputs kind evt sync (addr + 1))
      (readByte_effect kind evt sync (addr + 1)) _
      (okResponse (zext16 (readByte kind evt sync addr s.clearEvents).2))]
    simp only [State.respond, okResponse, lowByte_zext16]
    rfl
  · obtain ⟨c, u, hread, hcards⟩ := rdwBody_without_listeners kind evt sync (s := s.clearEvents) hlo hhi
    simp only [effect, hread]
    exact ⟨rfl, hcards⟩

/-- A word's write leaves every cell alone but the destinations of its two bytes, each through the entry of its time. -/
theorem wrwBody_cell (evt sync : Bool) {addr : Addr} (data : Word16) {s : State} {b : Bank} {p o : Byte}
    (hlo : ¬ isDestination (s.writeEntry (pageOf addr)) addr b p o)
    (hhi : ¬ isDestination ((wrBody evt sync addr (lowByte data) s).1.writeEntry (pageOf (addr + 1)))
      (addr + 1) b p o) :
    (wrwBody evt sync addr data s).1.cell b p o = s.cell b p o := by
  simp only [wrBody] at hhi
  simp only [wrwBody, nextAddr]
  rw [writeByte_cell _ _ _ hhi, writeByte_cell _ _ _ hlo]

/-- Settles O32: both bytes written at the port; without listeners the second store leaves the first's cell alone. -/
theorem wordWriteIsLittleEndian : Obligations.WordWriteIsLittleEndian := by
  intro s evt sync addr data hb hd
  have hword := exec_of_accessSync (i := .wrw evt sync addr data) rfl hb hd
  simp only [← lowByte_eq, ← highByte_eq]
  refine ⟨⟨_, _, _, exec_of_accessSync (i := .wr evt sync addr (lowByte data)) rfl hb hd,
    exec_access_after_access (i := .wr evt sync addr (lowByte data))
      (j := .wr evt sync (addr + 1) (highByte data)) rfl rfl hb hd _, hword, ?_, fun b p o hlo hhi => ?_⟩,
    fun hlo hhi => ⟨_, hword, ?_⟩⟩
  · simp only [effect, wrBody, wrwBody, nextAddr]
    rw [second_access_at_port (fun _ _ _ => writeByte_outputs evt sync (addr + 1) (highByte data))
      (writeByte_effect evt sync (addr + 1) (highByte data)) _
      (okResponse (zext16 (writeByte evt sync addr (lowByte data) s.clearEvents).2))]
    rfl
  · exact wrwBody_cell evt sync data (s := s.clearEvents) hlo hhi
  · obtain ⟨c, u, hwrite, hcards⟩ := wrwBody_without_listeners evt sync data (s := s.clearEvents) hlo hhi
    simp only [effect, hwrite]
    refine ⟨fun b p o hdest hblank => ?_, fun b p o hdest hblank => ?_, fun b p o hlo hhi => ?_, ?_, fun hempty => ?_⟩
    · exact (cell_storeThrough_of_not_destination _ _ fun hsucc => not_isDestination_of_succ hsucc hdest).trans
        (cell_storeThrough_of_destination _ _ hdest hblank)
    · exact cell_storeThrough_of_destination _ _ hdest hblank
    · exact (cell_storeThrough_of_not_destination _ _ hhi).trans (cell_storeThrough_of_not_destination _ _ hlo)
    · rw [storeThrough_eq, storeThrough_eq (s.clearEvents.withCards c u)]
      rfl
    · obtain ⟨rfl, rfl⟩ := hcards hempty
      rw [storeThrough_eq, storeThrough_eq (s.clearEvents.withCards _ _)]
      exact ⟨rfl, rfl⟩

/-! ## EVT (R125) -/

/-- A read with and without EVT: one of the two may run an empty chain. -/
theorem readByte_evt (kind : ReadKind) (sync : Bool) (addr : Addr) (s : State) :
    CardVeiled (readByte kind true sync addr s) (readByte kind false sync addr s) := by
  by_cases h : s.bucket addr = []
  · obtain ⟨c, u, htrue, -⟩ := readByte_without_listeners kind true sync h
    rw [htrue, readByte_plain kind sync addr s h]
    exact ⟨rfl, rfl⟩
  · rw [readByte_of_listeners kind true sync h, readByte_of_listeners kind false sync h]
    exact .refl _

theorem writeByte_evt (sync : Bool) (addr : Addr) (value : Byte) (s : State) :
    CardVeiled (writeByte true sync addr value s) (writeByte false sync addr value s) := by
  by_cases h : s.bucket addr = []
  · obtain ⟨c, u, htrue, -⟩ := writeByte_without_listeners true sync value h
    obtain ⟨c', u', hfalse, -⟩ := writeByte_without_listeners false sync value h
    rw [htrue, hfalse, ← withCards_storeThrough, ← withCards_storeThrough]
    exact ⟨rfl, rfl⟩
  · rw [writeByte_eq, writeByte_eq, writeChain_of_listeners true sync value h,
      writeChain_of_listeners false sync value h]
    exact .refl _

/-- RDATA of a byte access shows no more than its byte. -/
theorem CardVeiled.rdata {x y : State × Byte} (h : CardVeiled x y) :
    CardVeiled (x.1, zext16 x.2) (y.1, zext16 y.2) := by
  obtain ⟨hbyte, hstate⟩ := h
  exact ⟨congrArg zext16 hbyte, hstate⟩

/-- The second byte of a word, from states that differ in the records of the cards at most. -/
theorem CardVeiled.second {x y : State × Byte} (h : CardVeiled x y) {f g : State → State × Byte}
    (hfg : ∀ s, CardVeiled (f s) (g s)) (hg : ∀ s c u, CardVeiled (g s) (g (s.withCards c u))) :
    CardVeiled (f x.1) (g y.1) := by
  obtain ⟨-, hy⟩ := h
  have hcards : y.1 = x.1.withCards y.1.cardrun y.1.suspset := hy
  rw [hcards]
  exact (hfg x.1).trans (hg x.1 _ _)

theorem rdwBody_evt (kind : ReadKind) (sync : Bool) (addr : Addr) (s : State) :
    CardVeiled (rdwBody kind true sync addr s) (rdwBody kind false sync addr s) := by
  have hlo := readByte_evt kind sync addr s
  obtain ⟨hbyte, hstate⟩ := hlo.second (readByte_evt kind sync (nextAddr addr))
    fun t c u => readByte_withCards kind false sync (nextAddr addr) t
  exact ⟨congrArg₂ wordOf hbyte hlo.1, hstate⟩

theorem wrwBody_evt (sync : Bool) (addr : Addr) (data : Word16) (s : State) :
    CardVeiled (wrwBody true sync addr data s) (wrwBody false sync addr data s) := by
  obtain ⟨-, hstate⟩ := (writeByte_evt sync addr (lowByte data) s).second
    (writeByte_evt sync (nextAddr addr) (highByte data))
    fun t c u => writeByte_withCards false sync (nextAddr addr) (highByte data) t
  exact ⟨rfl, hstate⟩

/-- Two transactions accepted alike, whose effects differ in the records of the cards at most, end so. -/
theorem equalButCards_of_exec {i j : Instr} {s t u : State} (ha : accepted i s = accepted j s)
    (he : CardVeiled (effect i s.clearEvents) (effect j s.clearEvents))
    (ht : exec i s = .next t) (hu : exec j s = .next u) : equalButCards t u := by
  rw [exec_eq_effect] at ht hu
  cases hj : accepted j s with
  | false =>
    rw [transact_refused _ (ha.trans hj)] at ht
    rw [transact_refused _ hj] at hu
    cases ht
    cases hu
    rfl
  | true =>
    rw [transact_accepted _ (ha.trans hj)] at ht
    rw [transact_accepted _ hj] at hu
    cases ht
    cases hu
    obtain ⟨hdata, hstate⟩ := he
    rw [hdata]
    exact congrArg (State.respond · _) hstate

theorem CardVeiled.eq_of_cardsKept {α : Type} {s : State} {x y : State × α} (h : CardVeiled x y)
    (hx : cardsKept s x.1) (hy : cardsKept s y.1) : y = x := by
  obtain ⟨hdata, hstate⟩ := h
  obtain ⟨hxcard, hxsusp⟩ := hx
  obtain ⟨hycard, hysusp⟩ := hy
  refine Prod.ext ?_ hdata
  rw [hstate, hycard, hysusp, ← hxcard, ← hxsusp]

/-- Two accesses with SYNC = 0 leave the cards alone, so their ends do not differ at all. -/
theorem exec_eq_of_cardVeiled {i j : Instr} {s : State} (hi : accessSync i = some false)
    (hj : accessSync j = some false) (ha : accepted i s = accepted j s)
    (he : CardVeiled (effect i s.clearEvents) (effect j s.clearEvents)) : exec i s = exec j s := by
  have heq := he.eq_of_cardsKept ((effect_of_access hi s.clearEvents).cards rfl)
    ((effect_of_access hj s.clearEvents).cards rfl)
  simp only [exec_eq_effect, transact, perform, accepted_clearEvents, ha, heq]

/-- Settles O33: EVT decides no more than whether an empty chain runs. -/
theorem eventFlagShowsAtMostInTheCardRecords : Obligations.EventFlagShowsAtMostInTheCardRecords :=
  ⟨fun _ kind addr v data =>
    ⟨exec_eq_of_cardVeiled rfl rfl rfl (readByte_evt kind false addr _).rdata,
      exec_eq_of_cardVeiled rfl rfl rfl (writeByte_evt false addr v _).rdata,
      exec_eq_of_cardVeiled rfl rfl rfl (rdwBody_evt kind false addr _),
      exec_eq_of_cardVeiled rfl rfl rfl (wrwBody_evt false addr data _)⟩,
    fun _ _ _ kind addr v data =>
    ⟨equalButCards_of_exec rfl (readByte_evt kind true addr _).rdata,
      equalButCards_of_exec rfl (writeByte_evt true addr v _).rdata,
      equalButCards_of_exec rfl (rdwBody_evt kind true addr _),
      equalButCards_of_exec rfl (wrwBody_evt true addr data _)⟩⟩

/-! ## The round trip of a byte (R128) -/

/-- The two tables show the same page at `p`, and a write reaches it. -/
def MappedAlike (x : MapInputs) (p : Nat) : Prop := closedWrite x p ≠ none ∧ closedWrite x p = closedRead x p

section Rows

variable (x : MapInputs) {p : Nat}

theorem entry_auxIf_inj {a b : Bool} {p : Nat} : entry (auxIf a) p = entry (auxIf b) p ↔ a = b := by
  cases a <;> cases b <;> simp [entry, auxIf]

/-- On RAM the two tables agree where the 80-column store overrides both, else where RAMRD and RAMWRT agree. -/
theorem closedRam_eq_iff (sw : Switches) (a b : Bool) (p : Nat) :
    closedRam sw a p = closedRam sw b p ↔
      ((0x04 ≤ p ∧ p ≤ 0x07 ∧ sw.store80 = true) ∨ (0x20 ≤ p ∧ p ≤ 0x3F ∧ sw.store80 = true ∧ sw.hires = true)) ∨
        a = b := by
  rw [closedRam_eq, closedRam_eq]
  split
  · next h => exact iff_of_true rfl (.inl h)
  · next h => rw [entry_auxIf_inj, or_iff_right h]

theorem mappedAlike_low (h : p ≤ 0x01) : MappedAlike x p := by
  rw [MappedAlike, closedWrite, closedRead, if_pos h, if_pos h]
  exact ⟨nofun, rfl⟩

theorem mappedAlike_ram_iff (h : 0x02 ≤ p ∧ p ≤ 0xBF) :
    MappedAlike x p ↔
      ((0x04 ≤ p ∧ p ≤ 0x07 ∧ x.sw.store80 = true) ∨
        (0x20 ≤ p ∧ p ≤ 0x3F ∧ x.sw.store80 = true ∧ x.sw.hires = true)) ∨ x.sw.ramrd = x.sw.ramwrt := by
  have hram : closedWrite x p ≠ none := ((isRamEntry_closedWrite_low x (by omega)).namesLivePage x.occ).2
  have hwrite : closedWrite x p = closedRam x.sw x.sw.ramwrt p := by rw [closedWrite, if_neg (by omega), if_pos h.2]
  have hread : closedRead x p = closedRam x.sw x.sw.ramrd p := by rw [closedRead, if_neg (by omega), if_pos h.2]
  rw [MappedAlike, and_iff_right hram, hwrite, hread, closedRam_eq_iff, eq_comm (a := x.sw.ramwrt)]

theorem not_mappedAlike_io (h : 0xC0 ≤ p ∧ p ≤ 0xCF) : ¬ MappedAlike x p := fun halike =>
  halike.1 (closedWrite_io x h)

theorem closedLc_ne_rom (sw : Switches) (i p : Nat) : closedLc sw p ≠ some ⟨.rom, BitVec.ofNat 8 i⟩ := by
  rw [closedLc]
  split <;> cases sw.auxzp <;> simp

theorem mappedAlike_high_iff (h : 0xD0 ≤ p ∧ p < 256) :
    MappedAlike x p ↔ x.sw.lcram = true ∧ x.sw.lcwrite = true := by
  have hread : closedRead x p = if x.sw.lcram then closedLc x.sw p else some ⟨.rom, BitVec.ofNat 8 (p - 0xD0)⟩ := by
    rw [closedRead]
    repeat rw [if_neg (by omega)]
  rw [MappedAlike, ne_eq, closedWrite_eq_none_iff x h, closedWrite_high x h.1, hread]
  cases x.sw.lcwrite <;> cases x.sw.lcram <;> simp [closedLc_ne_rom]

end Rows

/-- Without listeners a read fetches what the write before it stored, where the tables show the same page. -/
theorem readByte_writeByte (kind : ReadKind) {addr : Addr} (v : Byte) {r : PageRef} {s : State}
    (hblank : r.bank ≠ .blank) (hw : s.writeEntry (pageOf addr) = some r) (hr : s.readEntry (pageOf addr) = some r)
    (hbucket : s.bucket addr = []) (hio : pageOf addr ≠ ioPage) :
    (readByte kind false false addr (writeByte false false addr v s).1).2 = v := by
  have hentry : (s.storeThrough (some r) (offsetOf addr) v).readEntry (pageOf addr) = some r := hr
  rw [writeByte_eq, writeChain_plain false addr v s hbucket, hw,
    readByte_plain kind false addr _ ((bucket_storeThrough ..).trans hbucket), if_neg hio, hentry]
  exact cell_storeThrough_same s r (offsetOf addr) v hblank

/-- Settles O34: the value is stored in the cell the read then fetches; and the tables agree row by row of R113. -/
theorem writeThenReadRoundTrip : Obligations.WriteThenReadRoundTrip := by
  refine ⟨fun s addr v r hb hblank hw hr hbucket hio => ?_, fun x p h => ?_⟩
  · refine ⟨_, _, exec_of_accessSync (i := .wr false false addr v) rfl hb (.inr rfl),
      exec_access_after_access (i := .wr false false addr v) (j := .rd .read false false addr) rfl rfl hb (.inr rfl) _,
      congrArg (fun byte => okResponse (zext16 byte)) ?_⟩
    have hport := second_access_at_port (fun _ _ _ => readByte_outputs .read false false addr)
      (readByte_effect .read false false addr) (writeByte false false addr v s.clearEvents).1
      (okResponse (zext16 (writeByte false false addr v s.clearEvents).2))
    exact (congrArg Prod.snd hport).symm.trans
      (readByte_writeByte .read (s := s.clearEvents) v hblank hw hr hbucket hio)
  · obtain ⟨hread, hwrite⟩ := reconfigurationEqualsTheClosedForm x p h
    rw [hread, hwrite]
    change MappedAlike x p ↔ _
    by_cases hlow : p ≤ 0x01
    · exact iff_of_true (mappedAlike_low x hlow) (.inl hlow)
    by_cases hram : p ≤ 0xBF
    · rw [mappedAlike_ram_iff x (by omega)]
      grind
    by_cases hio : p ≤ 0xCF
    · exact iff_of_false (not_mappedAlike_io x (by omega)) (by omega)
    · rw [mappedAlike_high_iff x (by omega)]
      grind

end Sys2Proof.Machine
end

section
/-! Proofs of the statements about the event dispatcher (43_dispatch.md R135 to R143). -/

namespace Sys2Proof.Machine

/-! ## Which listeners are called (R136) -/

/-- A listener is relevant where none of R136's three tests skips it. -/
theorem relevant_iff_not_skipped {l : Listener} {kind : AccessKind} {addr : Addr} {cur : Byte} :
    relevant l kind addr cur = true ↔ ¬ skipped l kind addr cur := by
  simp only [relevant, skipped, not_or, Bool.and_eq_true, Bool.not_eq_false, Scope.covers, decide_eq_true_eq,
    ← and_assoc (a := ¬ _)]
  refine and_congr_left' (and_congr ?scope ?type)
  case scope =>
    cases l.scope with
    | address a =>
      change _ ↔ ¬ addr ≠ a
      rw [not_not, eq_comm (a := addr), ← BitVec.toNat_inj]
      exact Nat.le_antisymm_iff.symm
    | range lo hi => simp only [Scope.lo, Scope.hi, not_or, not_lt]
    | any => simp only [Scope.lo, Scope.hi, not_false_eq_true, iff_true]; omega
  case type => cases l.tfilter <;> cases kind <;> decide

/-- A listener's call in a chain, reported to the outside as it begins (R135, 70_reset_and_hazards.md R195). -/
def callListener (l : Listener) (kind : AccessKind) (addr : Addr) (old cur : Byte) (s : State) : State × Byte :=
  callback l (callOf l kind addr old cur) (s.log (.call (callOf l kind addr old cur)))

section Walk

variable {l : Listener} {ls : List Listener} {kind : AccessKind} {addr : Addr} {old cur : Byte} {s : State}

/-- A skipped listener is passed over (R135). -/
theorem runChain_of_skipped (h : skipped l kind addr cur) :
    runChain kind addr old (l :: ls) cur s = runChain kind addr old ls cur s := by
  rw [runChain, if_neg fun hrel => relevant_iff_not_skipped.mp hrel h]

/-- Any other is called, and the walk goes on with what it leaves and returns (R135, R137). -/
theorem runChain_of_not_skipped (h : ¬ skipped l kind addr cur) :
    runChain kind addr old (l :: ls) cur s =
      runChain kind addr old ls (callListener l kind addr old cur s).2 (callListener l kind addr old cur s).1 := by
  rw [runChain, if_pos (relevant_iff_not_skipped.mpr h)]
  rfl

theorem runChain_of_all_skipped (h : ∀ l ∈ ls, skipped l kind addr cur) :
    runChain kind addr old ls cur s = (s, cur) := by
  induction ls with
  | nil => rfl
  | cons l ls ih =>
    obtain ⟨hl, hls⟩ := List.forall_mem_cons.mp h
    rw [runChain_of_skipped hl, ih hls]

theorem dispatch_of_all_skipped (h : ∀ l ∈ s.bucket addr, skipped l kind addr cur) :
    dispatch kind addr old cur s = (s, cur) := by
  simp only [dispatch, runChain_of_all_skipped h]
  rfl

/-! ## Listeners that only observe (R143) -/

theorem isObserver_iff : isObserver l = true ↔ l.device = .program [] .cur ∧ ∀ n, l.role ≠ .cardFirmware n := by
  rw [isObserver, Bool.and_eq_true, beq_iff_eq]
  cases l.role <;> simp

/-- An observer's callback returns the value it is called with, whether its gate is open or closed. -/
theorem callback_of_observer (h : isObserver l = true) (c : Call) : (callback l c s).2 = c.cur := by
  obtain ⟨hdevice, hrole⟩ := isObserver_iff.mp h
  rw [callback, hdevice]
  cases hr : l.role with
  | plain => rfl
  | cardIo n => rfl
  | cardFirmware n => exact absurd hr (hrole n)
  | cardExpansion n => dsimp only; split <;> rfl

theorem runChain_of_observers (h : ∀ l ∈ ls, isObserver l = true) : (runChain kind addr old ls cur s).2 = cur := by
  induction ls generalizing s with
  | nil => rfl
  | cons l ls ih =>
    obtain ⟨hl, hls⟩ := List.forall_mem_cons.mp h
    by_cases hskip : skipped l kind addr cur
    · rw [runChain_of_skipped hskip, ih hls]
    · rw [runChain_of_not_skipped hskip, callListener, callback_of_observer hl]
      exact ih hls

theorem dispatch_of_observers (h : ∀ l ∈ s.bucket addr, isObserver l = true) :
    (dispatch kind addr old cur s).2 = cur :=
  runChain_of_observers h

/-! ## Plain listeners that issue nothing (R135, R137) -/

/-- The state in which the outside has seen these events too. -/
def State.reported (s : State) (es : List Event) : State := { s with events := s.events ++ es }

theorem reported_nil : s.reported [] = s := by
  rw [State.reported, List.append_nil]

theorem reported_reported (es fs : List Event) : (s.reported es).reported fs = s.reported (es ++ fs) := by
  simp only [State.reported, List.append_assoc]

/-- The first of a chain, a plain listener that issues nothing, takes its turn; the others go on from its value. -/
theorem exists_turn_runChain {e : ValueExpr} (hr : l.role = .plain) (hd : l.device = .program [] e) :
    ∃ next calls, listenerTurn l e s.sw kind addr old cur next calls ∧
      ∀ ls, runChain kind addr old (l :: ls) cur s = runChain kind addr old ls next (s.reported calls) := by
  by_cases h : skipped l kind addr cur
  · refine ⟨cur, [], ⟨fun _ => ⟨rfl, rfl⟩, fun hn => absurd h hn⟩, fun ls => ?_⟩
    rw [runChain_of_skipped h, reported_nil]
  · refine ⟨_, _, ⟨fun hs => absurd hs h, fun _ => ⟨rfl, rfl⟩⟩, fun ls => ?_⟩
    rw [runChain_of_not_skipped h, callListener, callback, hr, hd]
    rfl

/-- Two such listeners in the bucket: the second's turn follows the first's, both with the same old byte. -/
theorem exists_turns_dispatch {l1 l2 : Listener} {e1 e2 : ValueExpr} (hb : s.bucket addr = [l1, l2])
    (hr1 : l1.role = .plain) (hr2 : l2.role = .plain) (hd1 : l1.device = .program [] e1)
    (hd2 : l2.device = .program [] e2) :
    ∃ v1 v2 calls1 calls2, listenerTurn l1 e1 s.sw kind addr old cur v1 calls1 ∧
      listenerTurn l2 e2 s.sw kind addr old v1 v2 calls2 ∧
      dispatch kind addr old cur s = (s.reported (calls1 ++ calls2), v2) := by
  obtain ⟨v1, calls1, hturn1, hchain1⟩ := exists_turn_runChain (s := s.setDispatch true) hr1 hd1
  obtain ⟨v2, calls2, hturn2, hchain2⟩ := exists_turn_runChain (s := (s.setDispatch true).reported calls1) hr2 hd2
  have hchain : runChain kind addr old [l1, l2] cur (s.setDispatch true) =
      ((s.setDispatch true).reported (calls1 ++ calls2), v2) := by
    rw [hchain1, hchain2, runChain, reported_reported]
  refine ⟨v1, v2, calls1, calls2, hturn1, hturn2, ?_⟩
  simp only [dispatch, hb, hchain]
  rfl

end Walk

/-! ## The statements about accesses -/

@[simp] theorem bucket_chainStart (s : State) (sync : Bool) (addr : Addr) :
    (s.chainStart sync).bucket addr = s.bucket addr := by
  cases sync with
  | false => rfl
  | true => exact bucket_suspendRun s.clearEvents addr

theorem chainStart_events (s : State) (sync : Bool) : (s.chainStart sync).events = [] := by
  cases sync with
  | false => rfl
  | true => exact (suspendRun_frame s.clearEvents).events

/-- Settles O36: the walk along the bucket, listener by listener; and a bucket all of whose listeners are skipped is
walked without a call. -/
theorem listenersRunInRegistrationOrder : Obligations.ListenersRunInRegistrationOrder := by
  refine ⟨fun s evt addr l1 l2 e1 e2 hb hbucket hr1 hr2 hd1 hd2 => ?_, fun s evt sync addr hb hd hne => ?_⟩
  · have hne : s.clearEvents.bucket addr ≠ [] := by
      rw [bucket_clearEvents, hbucket]; exact List.cons_ne_nil _ _
    refine ⟨fun kind => ?_, fun value => ?_⟩
    · obtain ⟨v1, v2, calls1, calls2, hturn1, hturn2, hdispatch⟩ :=
        exists_turns_dispatch (s := s.clearEvents) (kind := accessKindOf kind) (old := s.selectedByte addr)
          (cur := s.selectedByte addr) hbucket hr1 hr2 hd1 hd2
      have hread : readByte kind evt false addr s.clearEvents = (s.clearEvents.reported (calls1 ++ calls2), v2) :=
        (readByte_of_listeners kind evt false hne).trans hdispatch
      refine ⟨_, v1, v2, calls1, calls2, exec_of_accessSync (i := .rd kind evt false addr) rfl hb (.inr rfl),
        hturn1, hturn2, ?_⟩
      simp only [effect, rdBody, hread]
      rfl
    · obtain ⟨v1, v2, calls1, calls2, hturn1, hturn2, hdispatch⟩ :=
        exists_turns_dispatch (s := s.clearEvents) (kind := .write) (old := s.replacedByte addr) (cur := value)
          hbucket hr1 hr2 hd1 hd2
      have hchain : writeChain evt false addr value s.clearEvents =
          (s.clearEvents.reported (calls1 ++ calls2), v2) :=
        (writeChain_of_listeners evt false value hne).trans hdispatch
      refine ⟨_, v1, v2, calls1, calls2, exec_of_accessSync (i := .wr evt false addr value) rfl hb (.inr rfl),
        hturn1, hturn2, ?_⟩
      simp only [effect, wrBody, writeByte_eq, hchain, oldByte_eq_replacedByte]
      refine ⟨fun b p o hdest hblank => cell_storeThrough_of_destination _ v2 hdest hblank, ?_⟩
      rw [storeThrough_eq]
      rfl
  · obtain ⟨hreads, hwrites⟩ := accessesTakeTheChainValueThroughTheSampledEntry s evt sync addr hb hd
    refine ⟨fun kind hskip => ?_, fun value hskip => ?_⟩
    · obtain ⟨t, hexec, ht⟩ := hreads kind hne
      rw [dispatch_of_all_skipped (by rwa [bucket_chainStart])] at ht
      exact ⟨t, hexec, (congrArg State.events ht).trans (chainStart_events s sync), congrArg State.response ht⟩
    · obtain ⟨t, hexec, -, -, hchain⟩ := hwrites value
      obtain ⟨hcell, ht⟩ := hchain hne
      rw [dispatch_of_all_skipped (by rwa [bucket_chainStart])] at hcell ht
      exact ⟨t, hexec, (congrArg State.events ht).trans (chainStart_events s sync), hcell⟩

/-- Settles O38: the chain of observers ends with the byte it began with; without a listener no chain changes it. -/
theorem observersNeverChangeAnAccess : Obligations.ObserversNeverChangeAnAccess := by
  intro s evt sync addr hb hd hobs
  have hobs' : ∀ l ∈ (s.chainStart sync).bucket addr, isObserver l = true := by rwa [bucket_chainStart]
  obtain ⟨hreads, hwrites⟩ := accessesTakeTheChainValueThroughTheSampledEntry s evt sync addr hb hd
  refine ⟨fun kind hne => ?_, fun value => ?_⟩
  · obtain ⟨t, hexec, ht⟩ := hreads kind hne
    refine ⟨t, hexec, (congrArg State.response ht).trans ?_⟩
    rw [dispatch_of_observers hobs']
  · by_cases hempty : s.bucket addr = []
    · obtain ⟨t, hexec, hcell, -⟩ := writeWithoutListenersStoresOneCell s evt sync addr value hb hd hempty
      exact ⟨t, hexec, hcell⟩
    · obtain ⟨t, hexec, -, -, hchain⟩ := hwrites value
      obtain ⟨hcell, -⟩ := hchain hempty
      rw [dispatch_of_observers hobs'] at hcell
      exact ⟨t, hexec, hcell⟩

/-! ## LADD and LREM (R139 to R141) -/

/-- Settles O39: LADD is accepted since its id names a record. -/
theorem laddRegistersOnce : Obligations.LaddRegistersOnce := by
  intro s id l hb hd hr hrecord
  have ha : accepted (.ladd id) s = true :=
    (accepted_iff_at_top hb hd).mpr ⟨rfl, fun _ => hr, by rw [ownPrecondition, hrecord]; rfl⟩
  have hrecord' : s.clearEvents.env.record? id = some l := hrecord
  rw [exec_accepted (laddBody id) rfl ha, laddBody, hrecord']
  rfl

/-- Settles O40: the new registry is the old one without the listeners of the id. -/
theorem lremRemovesKeepingOrder : Obligations.LremRemovesKeepingOrder := by
  intro s id hb hd hr
  have ha : accepted (.lrem id) s = true := (accepted_iff_at_top hb hd).mpr ⟨rfl, fun _ => hr, rfl⟩
  refine ⟨s.lreg.filter fun l => !(l.id == id), exec_accepted (lremBody id) rfl ha, List.filter_sublist,
    fun l => ?_, fun hnone => List.filter_eq_self.mpr fun l hl => ?_⟩
  · simp only [List.mem_filter, Bool.not_eq_true', beq_eq_false_iff_ne, ne_eq]
  · simpa only [Bool.not_eq_true', beq_eq_false_iff_ne] using hnone l hl

/-! ## Nested operations (R138, 70_reset_and_hazards.md R204) -/

/-- The state with the outputs of another. -/
def State.withOutputsOf (t s : State) : State := { t with response := s.response, events := s.events }

/-- Where the effect neither reads nor changes the outputs, carrying a transaction out inside a dispatch and presenting
it at the port differ in the outputs alone, accepted or refused. -/
theorem perform_agrees_with_transact {i : Instr} {s : State} {body : State → State × Word16}
    (h : body s = ((body s.clearEvents).1.withOutputsOf s, (body s.clearEvents).2)) :
    ∃ t, transact i body s = .next t ∧ perform i body s = (t.withOutputsOf s, t.response) := by
  cases ha : accepted i s with
  | true => exact ⟨_, transact_accepted body ha, by rw [perform_accepted body ha, h]; rfl⟩
  | false => exact ⟨_, transact_refused body ha, perform_refused body ha⟩

/-- BANKRD's effect is such a one, whether it uses up a free value or not (41_mmu.md R117). -/
theorem bankrdBody_clearEvents (b : Bank) (p o : Byte) (s : State) :
    bankrdBody b p o s = ((bankrdBody b p o s.clearEvents).1.withOutputsOf s, (bankrdBody b p o s.clearEvents).2) := by
  cases h : s.bankAbsent b <;> simp only [bankrdBody, bankAbsent_clearEvents, h] <;> rfl

/-- Settles O41: each of the seven runs the effect of its own rule, in a dispatch as at the port. -/
theorem nestedOperationsActAsTheirTransactions : Obligations.NestedOperationsActAsTheirTransactions := by
  rintro i s - (⟨k, rfl⟩ | ⟨k, v, rfl⟩ | ⟨k, rfl⟩ | ⟨n, rfl⟩ | ⟨b, p, o, rfl⟩ | ⟨id, rfl⟩ | ⟨id, rfl⟩)
  · exact perform_agrees_with_transact (body := swgetBody k) rfl
  · exact perform_agrees_with_transact (body := swsetBody k v) rfl
  · exact perform_agrees_with_transact (body := swtglBody k) rfl
  · exact perform_agrees_with_transact (body := slotselBody n) rfl
  · exact perform_agrees_with_transact (bankrdBody_clearEvents b p o s)
  · exact perform_agrees_with_transact (body := spdreqBody id) rfl
  · exact perform_agrees_with_transact (body := spdrelBody id) rfl

end Sys2Proof.Machine
end

section
/-! Proofs of the statements about the card transactions and the listeners of cards (44_cards.md R150 to R158). -/

namespace Sys2Proof.Machine

/-! ## Blocks of stored bytes (10_state.md R13, R14) -/

/-- The cells of a bank are numbered in a row from its first (30_encoding.md R71, R72). -/
theorem cellNumber_eq_first_add (b : Bank) {i : Nat} (h : i < 65536) :
    cellNumber b (BitVec.ofNat 8 (i / 256)) (BitVec.ofNat 8 (i % 256)) = cellNumber b 0 0 + i := by
  have h0 : (0 : Byte).toNat = 0 := rfl
  simp only [cellNumber, BitVec.toNat_ofNat, h0]
  omega

/-- A cell that a stored block reaches holds the block's byte. -/
theorem cell_storeBlock_same (s : State) {b : Bank} {bytes : List Byte} {i : Nat} (hb : b ≠ .blank)
    (hi : i < bytes.length) (h : i < 65536) :
    (s.storeBlock b 0 bytes).cell b (BitVec.ofNat 8 (i / 256)) (BitVec.ofNat 8 (i % 256)) = bytes[i] := by
  simp only [State.cell, if_neg hb, State.storeBlock_mem, cellNumber_eq_first_add b h,
    Memory.read_writeBlock_in _ _ _ _ hi]

/-- A block stored from a bank's first cell on reaches no cell of another bank, since no bank has more than 65536 cell
numbers. -/
theorem cell_storeBlock_other (s : State) {b c : Bank} {bytes : List Byte} (p o : Byte) (hc : c ≠ b)
    (h : bytes.length ≤ 65536) : (s.storeBlock b 0 bytes).cell c p o = s.cell c p o := by
  have hid : c.id ≠ b.id := fun heq => hc (Bank.id_injective heq)
  have hout : cellNumber c p o < cellNumber b 0 0 ∨ cellNumber b 0 0 + bytes.length ≤ cellNumber c p o := by
    have := p.isLt
    have := o.isLt
    have h0 : (0 : Byte).toNat = 0 := rfl
    simp only [cellNumber, h0]
    omega
  simp only [State.cell, State.storeBlock_mem, Memory.read_writeBlock_out _ _ _ _ hout, State.epochOf,
    State.storeBlock_params, State.storeBlock_ramEpoch]

/-! ## CATT (R150, R157) -/

/-- The banks of slot n hold the card's images (R150, R158). -/
def State.holdsImages (s : State) (n : Slot) (c : Card) : Prop :=
  (∀ i : Nat, (h : i < 256) → s.cell (.fw n) 0 (BitVec.ofNat 8 i) = c.fw[i]) ∧
  (∀ i : Nat, (h : i < 2048) → s.cell (.exp n) (BitVec.ofNat 8 (i / 256)) (BitVec.ofNat 8 (i % 256)) = c.exp[i])

/-- The two block stores of R150. -/
def State.storeImages (s : State) (n : Slot) (c : Card) : State :=
  (s.storeBlock (.fw n) 0 c.fw.toList).storeBlock (.exp n) 0 c.exp.toList

theorem storeImages_holdsImages (s : State) (n : Slot) (c : Card) : (s.storeImages n c).holdsImages n c := by
  refine ⟨fun i h => ?_, fun i h => ?_⟩
  · -- The later store, to another bank, keeps what the first stored.
    have hstored := cell_storeBlock_same s (b := .fw n) (bytes := c.fw.toList) (i := i) nofun (by simpa) (by omega)
    rw [Nat.div_eq_of_lt h, Nat.mod_eq_of_lt h] at hstored
    have hkept := cell_storeBlock_other (s.storeBlock (.fw n) 0 c.fw.toList) (b := .exp n) (c := .fw n)
      (bytes := c.exp.toList) 0 (BitVec.ofNat 8 i) nofun (by simp)
    exact (hkept.trans hstored).trans (Vector.getElem_toList _)
  · exact cell_storeBlock_same _ (b := .exp n) (bytes := c.exp.toList) nofun (by simpa) (by omega)

theorem storeImages_cell_other (s : State) {n : Slot} (c : Card) {b : Bank} (p o : Byte) (hf : b ≠ .fw n)
    (he : b ≠ .exp n) : (s.storeImages n c).cell b p o = s.cell b p o := by
  rw [State.storeImages, cell_storeBlock_other _ p o he (by simp), cell_storeBlock_other _ p o hf (by simp)]

/-- CATT of a card that initialises stores its images, and writes OCC, CARDRUN, the registry, the index and the
tables. -/
theorem attach_eq (s : State) (n : Slot) :
    s.attach n = ({ s with
      mem := (s.storeImages n (s.env.cards.get n)).mem
      occ := s.occ.set n true
      cardrun := s.cardrun.set n true
      lreg := s.lreg ++ cardListeners n (s.env.cards.get n) } : State).reindexed.remapped := by
  simp only [State.attach, reconf_eq_remapped]
  rfl

theorem attach_cell (s : State) (n : Slot) (b : Bank) (p o : Byte) :
    (s.attach n).cell b p o = (s.storeImages n (s.env.cards.get n)).cell b p o := by
  rw [attach_eq]
  exact cell_congr rfl rfl rfl b p o

theorem attach_holdsImages (s : State) (n : Slot) : (s.attach n).holdsImages n (s.env.cards.get n) := by
  simp only [State.holdsImages, attach_cell]
  exact storeImages_holdsImages s n (s.env.cards.get n)

theorem attach_cell_other (s : State) {n : Slot} {b : Bank} (p o : Byte) (hf : b ≠ .fw n) (he : b ≠ .exp n) :
    (s.attach n).cell b p o = s.cell b p o := by
  rw [attach_cell, storeImages_cell_other s _ p o hf he]

theorem cattBody_of_initOk {s : State} {n : Slot} (h : (s.env.cards.get n).initOk = true) :
    cattBody n s = (s.attach n, 1) := if_pos h

theorem cattBody_of_not_initOk {s : State} {n : Slot} (h : (s.env.cards.get n).initOk = false) :
    cattBody n s = (s, 0) := by
  rw [cattBody, State.cardOf, h]
  rfl

/-- CATT is accepted for an empty slot of a machine that does not run, whether the card initialises or not. -/
theorem exec_catt {s : State} {n : Slot} (hb : s.booted = true) (hd : s.inDispatch = false) (hr : s.run ≠ .running)
    (ho : s.occ.get n = false) :
    exec (.catt n) s = .next ((cattBody n s.clearEvents).1.respond (okResponse (cattBody n s.clearEvents).2)) :=
  exec_accepted (cattBody n) rfl
    ((accepted_iff_at_top hb hd).mpr ⟨rfl, fun _ => hr, by rw [ownPrecondition, ho]; rfl⟩)

/-- Settles O42: the two stores put the images where they belong, and reach no other bank. -/
theorem cattInstallsTheCard : Obligations.CattInstallsTheCard := by
  intro s n hb hd hr ho hok
  obtain ⟨hfw, hexp⟩ := attach_holdsImages s.clearEvents n
  refine ⟨_, exec_catt hb hd hr ho, ?_⟩
  rw [cattBody_of_initOk (s := s.clearEvents) hok]
  refine ⟨hfw, hexp, fun b p o => attach_cell_other s.clearEvents p o, ?_⟩
  rw [attach_eq]
  rfl

/-- Settles O43: CATT is accepted, and its effect is none. -/
theorem failedCattChangesNothing : Obligations.FailedCattChangesNothing := by
  intro s n hb hd hr ho hfail
  rw [exec_catt hb hd hr ho, cattBody_of_not_initOk (s := s.clearEvents) hfail]
  rfl

/-! ## CDET (R151) -/

/-- The ids reserved to a slot do not wrap (R158). -/
theorem cardListenerId_toNat (n : Slot) {k : Nat} (h : k < 16) :
    (cardListenerId n k).toNat = 0xFF00 + 16 * n.number + k := by
  have := n.number_bounds
  rw [cardListenerId, BitVec.toNat_ofNat, Nat.mod_eq_of_lt (by omega)]

theorem eq_cardListenerId_iff (n : Slot) {k : Nat} (h : k < 16) (id : Word16) :
    id = cardListenerId n k ↔ id.toNat = 0xFF00 + 16 * n.number + k := by
  rw [← BitVec.toNat_inj, cardListenerId_toNat n h]

/-- The listeners CDET removes, owner and ids written out (R151, R158; log 18). -/
theorem isCardListener_eq (n : Slot) (l : Listener) :
    isCardListener n l = (decide (l.owner = some n) &&
      (l.id.toNat == 0xFF00 + 16 * n.number || l.id.toNat == 0xFF01 + 16 * n.number ||
        l.id.toNat == 0xFF02 + 16 * n.number)) := by
  rw [Bool.eq_iff_iff]
  simp only [isCardListener, Bool.and_eq_true, Bool.or_eq_true, beq_iff_eq, decide_eq_true_eq,
    eq_cardListenerId_iff n (show 0 < 16 by decide), eq_cardListenerId_iff n (show 1 < 16 by decide),
    eq_cardListenerId_iff n (show 2 < 16 by decide)]
  refine and_congr_right' (or_congr (or_congr ?_ ?_) ?_) <;> omega

/-- CDET writes OCC, the records of slot n, the registry, the index and the tables. -/
theorem cdetBody_eq (n : Slot) (s : State) :
    cdetBody n s = (({ s with
      lreg := s.lreg.filter (fun l => !isCardListener n l)
      occ := s.occ.set n false
      cardrun := s.cardrun.set n false
      suspset := s.suspset.set n false } : State).reindexed.remapped, 0) := by
  simp only [cdetBody, reconf_eq_remapped]
  rfl

/-- Settles O44: CDET is accepted, and its effect is the removal. -/
theorem cdetRemovesTheCard : Obligations.CdetRemovesTheCard := by
  intro s n hb hd hr ho
  have ha : accepted (.cdet n) s = true := (accepted_iff_at_top hb hd).mpr ⟨rfl, fun _ => hr, ho⟩
  simp only [exec_accepted (cdetBody n) rfl ha, cdetBody_eq, isCardListener_eq]
  rfl

/-! ## CRECFG (R152) -/

/-- What CRECFG does between its SUSPEND and its RESUME: CDET, then CATT of the card presented (R152). -/
def reattach (n : Slot) (s : State) : State × Word16 := cattBody n (cdetBody n s).1

theorem PerSlot.set_set {α : Type} (v : PerSlot α) (n : Slot) (x y : α) : (v.set n x).set n y = v.set n y := by
  cases n <;> rfl

theorem remapped_mapCurrent (s : State) : s.remapped.mapCurrent := ⟨rfl, rfl⟩

theorem reindexed_remapped_indexCurrent (s : State) : s.reindexed.remapped.indexCurrent := ⟨rfl, rfl⟩

/-- The state with this RUN and these records of the cards. -/
def State.withScheduler (s : State) (r : RunState) (c u : PerSlot Bool) : State :=
  { s with run := r, cardrun := c, suspset := u }

section Reattach

variable {n : Slot} {s : State}

theorem reattach_of_initOk (h : (s.env.cards.get n).initOk = true) :
    reattach n s = ((cdetBody n s).1.attach n, 1) :=
  cattBody_of_initOk (s := (cdetBody n s).1) h

theorem reattach_of_not_initOk (h : (s.env.cards.get n).initOk = false) : reattach n s = cdetBody n s :=
  cattBody_of_not_initOk (s := (cdetBody n s).1) h

theorem reattach_rdata (n : Slot) (s : State) :
    (reattach n s).2 = if (s.env.cards.get n).initOk then 1 else 0 := by
  cases h : (s.env.cards.get n).initOk with
  | true => rw [reattach_of_initOk h]; rfl
  | false => rw [reattach_of_not_initOk h]; rfl

/-- The slot ends occupied or empty as the card initialises or not; its new listeners come last, and index and tables
are those of the new registry and slots. -/
theorem reattach_slot (n : Slot) (s : State) :
    (reattach n s).1.occ = s.occ.set n (s.env.cards.get n).initOk ∧
      (reattach n s).1.lreg = s.lreg.filter (fun l => !isCardListener n l) ++
        (if (s.env.cards.get n).initOk then cardListeners n (s.env.cards.get n) else []) ∧
      (reattach n s).1.indexCurrent ∧ (reattach n s).1.mapCurrent := by
  cases h : (s.env.cards.get n).initOk with
  | true =>
    rw [reattach_of_initOk h, attach_eq, cdetBody_eq, if_pos rfl]
    exact ⟨PerSlot.set_set s.occ n false true, rfl, reindexed_remapped_indexCurrent _, remapped_mapCurrent _⟩
  | false =>
    rw [reattach_of_not_initOk h, cdetBody_eq]
    exact ⟨rfl, (List.append_nil _).symm, reindexed_remapped_indexCurrent _, remapped_mapCurrent _⟩

theorem reattach_holdsImages (h : (s.env.cards.get n).initOk = true) :
    (reattach n s).1.holdsImages n (s.env.cards.get n) := by
  rw [reattach_of_initOk h]
  exact attach_holdsImages (cdetBody n s).1 n

theorem reattach_cell_other {b : Bank} (p o : Byte) (hf : b ≠ .fw n) (he : b ≠ .exp n) :
    (reattach n s).1.cell b p o = s.cell b p o := by
  have hdetach : (cdetBody n s).1.cell b p o = s.cell b p o := cell_congr rfl rfl rfl b p o
  cases h : (s.env.cards.get n).initOk with
  | true => rw [reattach_of_initOk h, attach_cell_other _ p o hf he, hdetach]
  | false => rw [reattach_of_not_initOk h, hdetach]

/-- RUN passes through, and of the records of the cards those of slot n are written. -/
theorem reattach_withScheduler (r : RunState) (c u : PerSlot Bool) :
    reattach n (s.withScheduler r c u) =
      ((reattach n s).1.withScheduler r (c.set n (s.env.cards.get n).initOk) (u.set n false), (reattach n s).2) := by
  cases h : (s.env.cards.get n).initOk with
  | true =>
    rw [reattach_of_initOk (s := s.withScheduler r c u) h, reattach_of_initOk h, ← PerSlot.set_set c n false true]
    rfl
  | false =>
    rw [reattach_of_not_initOk (s := s.withScheduler r c u) h, reattach_of_not_initOk h]
    rfl

end Reattach

theorem crecfgBody_of_running {s : State} (hr : s.run = .running) (n : Slot) :
    crecfgBody n s = ((reattach n s.suspendRun).1.resumeRun, (reattach n s.suspendRun).2) := by
  simp only [crecfgBody, State.wasRunning, hr, decide_true, if_true, reattach]

theorem crecfgBody_of_not_running {s : State} (hr : s.run ≠ .running) (n : Slot) : crecfgBody n s = reattach n s := by
  simp only [crecfgBody, State.wasRunning, hr, decide_false, Bool.false_eq_true, if_false, reattach]

theorem suspendRun_of_running {s : State} (hr : s.run = .running) :
    s.suspendRun = s.withScheduler .paused s.suspendRun.cardrun s.suspendRun.suspset := by
  rw [State.suspendRun, State.pauseRun, if_pos hr]
  rfl

theorem resumeRun_withScheduler_paused (s : State) (c u : PerSlot Bool) :
    (s.withScheduler .paused c u).resumeRun =
      s.withScheduler .running (PerSlot.tabulate fun m => u.get m || c.get m) PerSlot.allOff := rfl

/-- A card that SUSPEND pauses was running, and is recorded (45_scheduler.md R163). -/
theorem recorded_or_running_of_suspendRun (s : State) (m : Slot) :
    (s.suspendRun.suspset.get m || s.suspendRun.cardrun.get m) = (s.suspset.get m || s.cardrun.get m) := by
  have hpaused : s.willSuspend m = true → s.cardrun.get m = true := fun h => (Bool.and_eq_true_iff.mp h).2
  rw [suspendRun_suspset, suspendRun_cardrun]
  cases hw : s.willSuspend m with
  | false => simp
  | true => simp [hpaused hw]

/-- CRECFG's SUSPEND and RESUME show in the records of the cards alone: of a running machine every recorded card runs
again, and none stays recorded (45_scheduler.md R162, R163). -/
theorem crecfgBody_eq_reattach (n : Slot) (s : State) :
    ∃ c u, crecfgBody n s = ((reattach n s).1.withScheduler s.run c u, (reattach n s).2) ∧
      (∀ m, c.get m = if m = n then (s.env.cards.get n).initOk
        else if s.run = .running then (s.suspset.get m || s.cardrun.get m) else s.cardrun.get m) ∧
      (∀ m, u.get m = if m = n ∨ s.run = .running then false else s.suspset.get m) := by
  by_cases hr : s.run = .running
  · rw [crecfgBody_of_running hr, suspendRun_of_running hr, reattach_withScheduler, resumeRun_withScheduler_paused, hr]
    refine ⟨_, _, rfl, fun m => ?_, fun m => ?_⟩
    · simp only [PerSlot.get_tabulate, PerSlot.get_set, if_true, ← recorded_or_running_of_suspendRun s m]
      split <;> rfl
    · simp only [PerSlot.get_allOff, or_true, if_true]
  · refine ⟨s.cardrun.set n (s.env.cards.get n).initOk, s.suspset.set n false,
      (crecfgBody_of_not_running hr n).trans (reattach_withScheduler s.run s.cardrun s.suspset), fun m => ?_,
      fun m => ?_⟩
    · simp only [PerSlot.get_set, hr, if_false]
    · simp only [PerSlot.get_set, hr, or_false]

/-- Settles O45: the detach and the attach give the slot, the registry and the images, and the SUSPEND and RESUME around
them the records of the cards. -/
theorem crecfgDetachesThenAttaches : Obligations.CrecfgDetachesThenAttaches := by
  intro s n hb hd ho
  have ha : accepted (.crecfg n) s = true := (accepted_iff_at_top hb hd).mpr ⟨rfl, nofun, ho⟩
  have hframe := crecfgBody_frame n s.clearEvents
  obtain ⟨c, u, hbody, hc, hu⟩ := crecfgBody_eq_reattach n s.clearEvents
  obtain ⟨hocc, hlreg, hindex, hmap⟩ := reattach_slot n s.clearEvents
  refine ⟨_, exec_accepted (crecfgBody n) rfl ha, ?_⟩
  rw [hbody] at hframe ⊢
  exact ⟨congrArg okResponse (reattach_rdata n s.clearEvents), hocc, hlreg, hindex, hmap, rfl, hc, hu,
    fun i h hok => (reattach_holdsImages (s := s.clearEvents) hok).1 i h,
    fun i h hok => (reattach_holdsImages (s := s.clearEvents) hok).2 i h,
    fun b p o => reattach_cell_other (s := s.clearEvents) p o, hframe.sw, hframe.asl, hframe.divcnt, hframe.speedset,
    hframe.booted, hframe.inDispatch, hframe.params, hframe.env, hframe.pending, hframe.events⟩

/-! ## SLOTSEL (R153) -/

/-- The write table shows no slot (41_mmu.md R113). -/
theorem closedWriteTable_of_asl (x : MapInputs) (n : Option Slot) :
    closedWriteTable { x with asl := n } = closedWriteTable x := rfl

/-- No firmware window shows the active slot (41_mmu.md R113). -/
theorem closedFirmware_of_asl (x : MapInputs) (n : Option Slot) (m : Slot) :
    closedFirmware { x with asl := n } m = closedFirmware x m := rfl

/-- The expansion window alone shows the active slot, and only with both motherboard switches off (41_mmu.md R113). -/
theorem closedRead_of_asl (x : MapInputs) (n : Option Slot) {p : Nat}
    (h : p < 0xC8 ∨ 0xCF < p ∨ x.sw.intcxrom = true ∨ x.sw.intc8rom = true) :
    closedRead { x with asl := n } p = closedRead x p := by
  simp only [closedRead, closedFirmware_of_asl]
  refine ite_congr rfl (fun _ => rfl) fun _ => ite_congr rfl (fun _ => rfl) fun _ => ite_congr rfl (fun _ => rfl)
    fun _ => ite_congr rfl (fun _ => rfl) fun hlo => ite_congr rfl (fun hhi => ?_) fun _ => rfl
  have hrom : x.sw.intcxrom = true ∨ x.sw.intc8rom = true :=
    (h.resolve_left (by omega)).resolve_left (by omega)
  rw [closedExpansion, closedExpansion, if_pos hrom, if_pos hrom]

/-- Entry `p` of the closed read table: none past the last page. -/
theorem tableEntry_closedReadTable (x : MapInputs) (p : Nat) :
    tableEntry (closedReadTable x) p = if p < 256 then closedRead x p else none := by
  split
  · next h => exact tableEntry_tabulate (closedRead x) h
  · next h => exact tableEntry_tabulate_out (closedRead x) (Nat.not_lt.mp h)

/-- Settles O46: SLOTSEL is accepted, at top level and inside a dispatch, and what the tables show of the active slot is
the expansion window. -/
theorem slotselMovesOnlyTheExpansionWindow : Obligations.SlotselMovesOnlyTheExpansionWindow := by
  intro s n hb hq
  have ha : accepted (.slotsel n) s = true := (accepted_iff_of_booted hb).mpr ⟨rfl, fun _ => rfl, fun _ => hq, rfl⟩
  refine ⟨_, exec_accepted (slotselBody n) rfl ha, ?_, ?_⟩
  · rw [slotselBody, reconf_eq_remapped]
    rfl
  · rintro ⟨hrt, hwt⟩
    rw [slotselBody, reconf_eq_remapped]
    refine ⟨(closedWriteTable_of_asl s.mapInputs n).trans hwt.symm, fun p hp => ?_⟩
    have hentry : tableEntry (closedReadTable { s.mapInputs with asl := n }) p =
        tableEntry (closedReadTable s.mapInputs) p := by
      rw [tableEntry_closedReadTable, tableEntry_closedReadTable, closedRead_of_asl s.mapInputs n hp]
    rw [← hrt] at hentry
    exact hentry

/-! ## The listeners of a card in a chain (R155, R156) -/

/-- A listener for every kind and value is called where its range takes in the address. -/
theorem not_skipped_of_range {l : Listener} {lo hi : Addr} (hs : l.scope = .range lo hi) (ht : l.tfilter = .any)
    (hm : l.vmask = BitVec.allOnes 256) {kind : AccessKind} {addr : Addr} {cur : Byte}
    (h : lo.toNat ≤ addr.toNat ∧ addr.toNat ≤ hi.toNat) : ¬ skipped l kind addr cur := by
  have hcur : (BitVec.allOnes 256).getLsbD cur.toNat = true := by
    rw [BitVec.getLsbD_allOnes, decide_eq_true cur.isLt]
  simp only [skipped, hs, ht, hm, hcur, Bool.true_eq_false, or_false, not_or, Nat.not_lt]
  exact h

theorem firmware_not_skipped {n : Slot} (c : Card) {kind : AccessKind} {addr : Addr} {cur : Byte}
    (h : pageOf addr = 0xC0 + n.number) : ¬ skipped (cardFirmwareListener n c) kind addr cur := by
  have hn := n.number_bounds
  refine not_skipped_of_range rfl rfl rfl ?_
  rw [pageOf] at h
  simp only [BitVec.toNat_ofNat]
  omega

theorem expansion_not_skipped {n : Slot} (c : Card) {kind : AccessKind} {addr : Addr} {cur : Byte}
    (h : 0xC8 ≤ pageOf addr ∧ pageOf addr ≤ 0xCF) : ¬ skipped (cardExpansionListener n c) kind addr cur := by
  refine not_skipped_of_range rfl rfl rfl ?_
  change 0xC800 ≤ addr.toNat ∧ addr.toNat ≤ 0xCFFF
  rw [pageOf] at h
  omega

section LoneListener

variable {s t : State} {addr : Addr} {l : Listener} {v : Byte} (hbucket : s.bucket addr = [l])
include hbucket

/-- A listener alone in the bucket, and not skipped, is the whole chain (43_dispatch.md R135). -/
theorem dispatch_of_lone_listener {kind : AccessKind} {old cur : Byte} (h : ¬ skipped l kind addr cur)
    (hcall : callListener l kind addr old cur (s.setDispatch true) = (t, v)) :
    dispatch kind addr old cur s = (t.setDispatch s.inDispatch, v) := by
  simp only [dispatch, hbucket, runChain_of_not_skipped h, hcall, runChain]

theorem bucket_ne_nil_of_lone_listener : s.clearEvents.bucket addr ≠ [] := by
  rw [bucket_clearEvents, hbucket]
  exact List.cons_ne_nil _ _

variable (hb : s.booted = true) (evt : Bool)
include hb

/-- RD with SYNC = 0 is the call of such a listener (42_access.md R120). -/
theorem exec_rd_of_lone_listener {kind : ReadKind} (h : ¬ skipped l (accessKindOf kind) addr (s.selectedByte addr))
    (hcall : callListener l (accessKindOf kind) addr (s.selectedByte addr) (s.selectedByte addr)
      (s.clearEvents.setDispatch true) = (t, v)) :
    exec (.rd kind evt false addr) s = .next ((t.setDispatch s.inDispatch).respond (okResponse (zext16 v))) := by
  have hread : readByte kind evt false addr s.clearEvents = (t.setDispatch s.inDispatch, v) :=
    (readByte_of_listeners kind evt false (bucket_ne_nil_of_lone_listener hbucket)).trans
      (dispatch_of_lone_listener (s := s.clearEvents) hbucket h hcall)
  rw [exec_of_accessSync (i := .rd kind evt false addr) rfl hb (.inr rfl)]
  simp only [effect, rdBody, hread]

/-- WR with SYNC = 0 is the call of such a listener, then the store of the byte it returns (42_access.md R121). -/
theorem exec_wr_of_lone_listener {value : Byte} (h : ¬ skipped l .write addr value)
    (hcall : callListener l .write addr (s.replacedByte addr) value (s.clearEvents.setDispatch true) = (t, v)) :
    ∃ t', exec (.wr evt false addr value) s = .next t' ∧
      (∀ b p o, ¬ isDestination (s.writeEntry (pageOf addr)) addr b p o → t'.cell b p o = s.cell b p o) ∧
      (∀ b p o, isDestination (s.writeEntry (pageOf addr)) addr b p o → b ≠ .blank → t'.cell b p o = v) ∧
      t' = { t with
        mem := t'.mem
        inDispatch := s.inDispatch
        response := okResponse (zext16 (s.replacedByte addr)) } := by
  have hchain : writeChain evt false addr value s.clearEvents = (t.setDispatch s.inDispatch, v) :=
    (writeChain_of_listeners evt false value (bucket_ne_nil_of_lone_listener hbucket)).trans
      (dispatch_of_lone_listener (s := s.clearEvents) hbucket h hcall)
  have hwrite : writeByte evt false addr value s.clearEvents =
      ((t.setDispatch s.inDispatch).storeThrough (s.writeEntry (pageOf addr)) (offsetOf addr) v,
        s.replacedByte addr) := by
    rw [writeByte_eq, hchain, oldByte_eq_replacedByte]
    rfl
  refine ⟨_, exec_of_accessSync (i := .wr evt false addr value) rfl hb (.inr rfl),
    fun b p o hdest => writeByte_cell evt false value (s := s.clearEvents) hdest, ?_, ?_⟩
  · simp only [effect, wrBody, hwrite]
    exact fun b p o hdest hblank => cell_storeThrough_of_destination _ v hdest hblank
  · simp only [effect, wrBody, hwrite]
    rw [storeThrough_eq]
    rfl

end LoneListener

/-! ## The firmware-access listener (R155) -/

/-- SLOTSEL is accepted inside a dispatch (R153, 60_exceptions.md R175 (3)). -/
theorem runMoves_slotsel {s : State} (hb : s.booted = true) (hd : s.inDispatch = true) (n : Option Slot) :
    runMoves [.slotsel n] s = (s.setAsl n).remapped.log (.nested (.slotsel n) (okResponse 0)) := by
  have ha : accepted (.slotsel n) s = true :=
    (accepted_iff_of_booted hb).mpr ⟨rfl, fun _ => rfl, fun _ => .inl hd, rfl⟩
  rw [runMoves, if_pos (show isNestedMove (.slotsel n) = true from rfl), runNested, perform_accepted _ ha, slotselBody,
    reconf_eq_remapped]
  rfl

section Firmware

variable {n : Slot} {c : Card} (hdevice : c.firmware = .program [] .cur) (addr : Addr) (old cur : Byte)
include hdevice

/-- A read or fetch sets the latch before the device runs; one that only observes returns the byte. -/
theorem callListener_firmware_read {s : State} (hb : s.booted = true) (hd : s.inDispatch = true) (kind : ReadKind) :
    callListener (cardFirmwareListener n c) (accessKindOf kind) addr old cur s =
      (((s.log (.call (callOf (cardFirmwareListener n c) (accessKindOf kind) addr old cur))).setAsl
        (some n)).remapped.log (.nested (.slotsel (some n)) (okResponse 0)), cur) := by
  have hkind : accessKindOf kind ≠ .write := by cases kind <;> nofun
  refine (if_neg hkind).trans ?_
  change runDevice c.firmware _ _ = _
  rw [hdevice, runMoves_slotsel (s := s.log _) hb hd]
  rfl

/-- A write runs the device alone. -/
theorem callListener_firmware_write (s : State) :
    callListener (cardFirmwareListener n c) .write addr old cur s =
      (s.log (.call (callOf (cardFirmwareListener n c) .write addr old cur)), cur) := by
  change runDevice c.firmware _ _ = _
  rw [hdevice]
  rfl

end Firmware

/-- Settles O47: a read's nested SLOTSEL moves the latch after the byte was fetched; a write's store moves no table. -/
theorem firmwareReadSetsTheLatch : Obligations.FirmwareReadSetsTheLatch := by
  intro s n c evt addr hb hpage hbucket hdevice
  refine ⟨fun kind => ⟨_, exec_rd_of_lone_listener hbucket hb evt (firmware_not_skipped c hpage)
      (callListener_firmware_read hdevice addr _ _ (s := s.clearEvents.setDispatch true) hb rfl kind), rfl, rfl, rfl,
      rfl⟩,
    fun value => ?_⟩
  obtain ⟨t, hexec, -, -, ht⟩ := exec_wr_of_lone_listener hbucket hb evt (firmware_not_skipped c hpage)
    (callListener_firmware_write hdevice addr _ value _)
  refine ⟨t, hexec, ?_⟩
  rw [ht]
  exact ⟨rfl, rfl, rfl⟩

/-! ## The expansion-ROM listener (R156) -/

/-- The state in which the device of a chain's first listener runs. -/
theorem log_setDispatch_clearEvents (s : State) (e : Event) :
    (s.clearEvents.setDispatch true).log e = { s with inDispatch := true, events := [e] } := rfl

/-- What the listener is called with, its id written out (R158). -/
theorem callOf_expansion (n : Slot) (c : Card) (kind : AccessKind) (addr : Addr) (old cur : Byte) :
    callOf (cardExpansionListener n c) kind addr old cur =
      ⟨BitVec.ofNat 16 (0xFF02 + 16 * n.number), kind, addr, registerOffset addr, old, cur⟩ := by
  cases n <;> rfl

section Gate

variable {n : Slot} {s : State} (c : Card) (kind : AccessKind) (addr : Addr) (old cur : Byte)

/-- R156's gate. -/
theorem expansionGate_iff : expansionGate n s = true ↔ s.asl = some n ∧ s.sw.intc8rom = false := by
  simp only [expansionGate, Bool.and_eq_true, decide_eq_true_eq, Bool.not_eq_true']

/-- While ASL is n and INTC8ROM is off the device runs. -/
theorem callListener_expansion_open (ha : s.asl = some n) (h8 : s.sw.intc8rom = false) :
    callListener (cardExpansionListener n c) kind addr old cur s =
      runDevice c.expansion (callOf (cardExpansionListener n c) kind addr old cur)
        (s.log (.call (callOf (cardExpansionListener n c) kind addr old cur))) :=
  if_pos (expansionGate_iff.mpr ⟨ha, h8⟩)

/-- Else the listener returns the byte it is given and has no effect. -/
theorem callListener_expansion_closed (h : s.asl ≠ some n ∨ s.sw.intc8rom = true) :
    callListener (cardExpansionListener n c) kind addr old cur s =
      (s.log (.call (callOf (cardExpansionListener n c) kind addr old cur)), cur) := by
  refine if_neg fun hgate => ?_
  obtain ⟨ha, h8⟩ := expansionGate_iff.mp hgate
  rcases h with h | h
  · exact h ha
  · cases h.symm.trans h8

end Gate

/-- Settles O48: reads and writes are the one call, and the gate decides what it does. -/
theorem expansionListenerIsGated : Obligations.ExpansionListenerIsGated := by
  intro s n c evt addr hb hlo hhi hbucket
  have hcalled (kind : AccessKind) (cur : Byte) : ¬ skipped (cardExpansionListener n c) kind addr cur :=
    expansion_not_skipped c ⟨hlo, hhi⟩
  refine ⟨fun kind => ?_, fun value => ?_⟩
  · rcases hcall : callListener (cardExpansionListener n c) (accessKindOf kind) addr (s.selectedByte addr)
      (s.selectedByte addr) (s.clearEvents.setDispatch true) with ⟨u, v⟩
    refine ⟨_, _, callOf_expansion n c (accessKindOf kind) addr _ _,
      exec_rd_of_lone_listener hbucket hb evt (hcalled _ _) hcall, fun h => ?_, fun ha h8 => ?_⟩
    · rw [callListener_expansion_closed (s := s.clearEvents.setDispatch true) _ _ _ _ _ h] at hcall
      cases hcall
      rfl
    · rw [callListener_expansion_open (s := s.clearEvents.setDispatch true) _ _ _ _ _ ha h8,
        log_setDispatch_clearEvents] at hcall
      obtain ⟨rfl, rfl⟩ := Prod.ext_iff.mp hcall
      rfl
  · rcases hcall : callListener (cardExpansionListener n c) .write addr (s.replacedByte addr) value
      (s.clearEvents.setDispatch true) with ⟨u, v⟩
    obtain ⟨t, hexec, hkept, hstored, ht⟩ := exec_wr_of_lone_listener hbucket hb evt (hcalled _ _) hcall
    refine ⟨t, _, callOf_expansion n c .write addr _ value, hexec, hkept, fun h => ?_, fun ha h8 => ?_⟩
    · rw [callListener_expansion_closed (s := s.clearEvents.setDispatch true) _ _ _ _ _ h] at hcall
      cases hcall
      exact ⟨hstored, ht⟩
    · rw [callListener_expansion_open (s := s.clearEvents.setDispatch true) _ _ _ _ _ ha h8,
        log_setDispatch_clearEvents] at hcall
      obtain ⟨rfl, rfl⟩ := Prod.ext_iff.mp hcall
      exact ⟨hstored, ht⟩

end Sys2Proof.Machine
end

section
/-! Proofs of the statements about the scheduler (45_scheduler.md R160 to R168). -/

namespace Sys2Proof.Machine

/-! ## PAUSE, RESUME, SUSPEND, START and STOP (R161 to R165) -/

/-- At top level a transaction that is no structural mutation has its effect when its own precondition holds. -/
theorem exec_at_top {i : Instr} {s : State} (hb : s.booted = true) (hd : s.inDispatch = false)
    (hw : i.wellFormed = true) (hi : isStructural i = false) (ho : ownPrecondition s i = true) :
    exec i s = .next ((effect i s.clearEvents).1.respond (okResponse (effect i s.clearEvents).2)) :=
  exec_accepted _ (exec_eq_effect i s)
    ((accepted_iff_at_top hb hd).mpr ⟨hw, fun h => absurd h (by rw [hi]; decide), ho⟩)

theorem pauseRun_of_running {s : State} (h : s.run = .running) : s.pauseRun = s.setRun .paused := if_pos h

theorem pauseRun_of_not_running {s : State} (h : s.run ≠ .running) : s.pauseRun = s := if_neg h

@[simp] theorem wasRunning_clearEvents (s : State) : s.clearEvents.wasRunning = s.wasRunning := rfl

theorem wasRunning_bit (s : State) : bit16 s.wasRunning = if s.run = .running then 1 else 0 := by
  simp only [bit16, State.wasRunning, decide_eq_true_eq]

/-- Settles O50: PAUSE is accepted, and moves RUN from Running alone. -/
theorem pauseAnswersWhetherRunning : Obligations.PauseAnswersWhetherRunning := by
  intro s hb hd
  rw [exec_at_top (i := .pause) hb hd rfl rfl rfl]
  simp only [effect, wasRunning_clearEvents, wasRunning_bit]
  refine ⟨fun hr => ?_, fun hr => ?_⟩
  · rw [pauseRun_of_running (s := s.clearEvents) hr, if_pos hr]
    rfl
  · rw [pauseRun_of_not_running (s := s.clearEvents) hr, if_neg hr]
    rfl

theorem resumeRun_of_paused {s : State} (h : s.run = .paused) :
    s.resumeRun = s.withScheduler .running (PerSlot.tabulate fun n => s.suspset.get n || s.cardrun.get n)
      PerSlot.allOff :=
  if_pos h

theorem resumeRun_of_not_paused {s : State} (h : s.run ≠ .paused) : s.resumeRun = s := if_neg h

/-- Settles O51: RESUME is accepted unless the machine is Stopped, and from Paused alone moves RUN and the cards. -/
theorem resumeRestartsTheRecordedCards : Obligations.ResumeRestartsTheRecordedCards := by
  intro s hb hd
  have hexec (h : s.run ≠ .stopped) := exec_at_top (i := .resume) hb hd rfl rfl (decide_eq_true h)
  refine ⟨fun hr => ⟨_, hexec (by rw [hr]; decide), ?_⟩, fun hr => ?_⟩
  · simp only [effect, resumeRun_of_paused (s := s.clearEvents) hr]
    refine ⟨fun n => ?_, PerSlot.get_allOff, rfl⟩
    simp only [State.respond_cardrun, State.withScheduler, PerSlot.get_tabulate, Bool.or_eq_true]
    rfl
  · rw [hexec (by rw [hr]; decide)]
    simp only [effect, resumeRun_of_not_paused (s := s.clearEvents) (by rw [State.clearEvents_run, hr]; decide)]
    rfl

theorem suspendRun_eq (s : State) :
    s.suspendRun =
      s.withScheduler (if s.run = .running then .paused else s.run) s.suspendRun.cardrun s.suspendRun.suspset := by
  rw [State.suspendRun, State.pauseRun]
  split <;> rfl

/-- A card SUSPEND pauses: it runs, its slot is occupied, and it suspends with the CPU. -/
theorem willSuspend_iff {s : State} {n : Slot} :
    s.willSuspend n = true ↔
      s.cardrun.get n = true ∧ s.occ.get n = true ∧ (s.env.cards.get n).suspendsWithCpu = true := by
  rw [State.willSuspend, Bool.and_eq_true, Bool.and_eq_true, and_comm]

/-- Settles O52: SUSPEND is accepted in any RUN, and moves the cards it pauses from the running to the recorded ones. -/
theorem suspendRecordsTheSubset : Obligations.SuspendRecordsTheSubset := by
  intro s hb hd
  refine ⟨_, exec_at_top (i := .suspend) hb hd rfl rfl rfl, fun n => ?_, fun n => ?_, ?_⟩
  · simp only [effect, State.respond_cardrun, suspendRun_cardrun, Bool.and_eq_true, Bool.not_eq_true',
      ← Bool.not_eq_true, willSuspend_iff]
    exact and_congr_right fun hc => not_congr (and_iff_right hc)
  · simp only [effect, State.respond_suspset, suspendRun_suspset, Bool.or_eq_true, willSuspend_iff]
    rfl
  · simp only [effect, wasRunning_clearEvents, wasRunning_bit]
    rw [suspendRun_eq]
    rfl

/-- Where START is accepted it leaves the machine Running, from Running too. -/
theorem startBody_of_not_paused {s : State} (h : s.run ≠ .paused) : startBody s = (s.setRun .running, 0) := by
  cases hr : s.run with
  | stopped => rw [startBody, if_pos hr]
  | running => rw [startBody, hr, if_neg nofun, State.setRun, ← hr]
  | paused => exact absurd hr h

/-- Settles O53: START is accepted unless the machine is Paused, STOP always. -/
theorem startAndStopMoveRun : Obligations.StartAndStopMoveRun := by
  intro s hb hd
  refine ⟨fun hr => ?_, _, exec_at_top (i := .stop) hb hd rfl rfl rfl, PerSlot.get_allOff, rfl⟩
  rw [exec_at_top (i := .start) hb hd rfl rfl (decide_eq_true hr), effect,
    startBody_of_not_paused (s := s.clearEvents) hr]
  rfl

/-! ## SPDREQ and SPDREL (R166, R167) -/

/-- One occurrence less of the removed id, if there is one; no change for any other (R167). -/
theorem count_removeRequest (id x : Word16) (xs : List Word16) :
    (removeRequest id xs).count x = xs.count x - if x = id then 1 else 0 := by
  simp only [removeRequest, List.count_erase, beq_iff_eq, @eq_comm _ id x]

/-- Settles O54: both are accepted, inside a dispatch too, and count as the multiset's operations do. -/
theorem speedRequestsCountOccurrences : Obligations.SpeedRequestsCountOccurrences := by
  intro s id hb
  have hreq : accepted (.spdreq id) s = true := (accepted_iff_of_booted hb).mpr ⟨rfl, fun _ => rfl, nofun, rfl⟩
  have hrel : accepted (.spdrel id) s = true := (accepted_iff_of_booted hb).mpr ⟨rfl, fun _ => rfl, nofun, rfl⟩
  exact ⟨⟨_, exec_accepted (spdreqBody id) rfl hreq, fun x => count_addRequest id x s.speedset, rfl⟩,
    ⟨_, exec_accepted (spdrelBody id) rfl hrel, fun x => count_removeRequest id x s.speedset, rfl⟩⟩

end Sys2Proof.Machine
end

section
/-! Proof of the statement about TICK (45_scheduler.md R160, R168): inside TICK the tick steps do what their accesses do
at the port, presented one after another. -/

namespace Sys2Proof.Machine

/-! ## TICK as a list of tick steps -/

/-- Tick steps one after another, inside one TICK. -/
def runTickSteps (ps : List (TickTarget × TickStep)) (s : State) : State :=
  ps.foldl (fun t p => runTickStep p.1 p.2 t) s

theorem runTickSteps_append (ps qs : List (TickTarget × TickStep)) (s : State) :
    runTickSteps (ps ++ qs) s = runTickSteps qs (runTickSteps ps s) := List.foldl_append

theorem tickMisc_eq_runTickSteps (i : Nat) (ps : List TickStep) (s : State) :
    tickMisc i ps s = runTickSteps ((ps.zipIdx i).map fun p => (.misc p.2, p.1)) s := by
  induction ps generalizing i s with
  | nil => rfl
  | cons p ps ih => rw [tickMisc, ih]; rfl

/-- No tick step changes OCC, so TICK's test of each slot at its turn is a test of the slots before. -/
theorem tickCards_eq_runTickSteps (plan : TickPlan) (s : State) :
    tickCards plan s =
      runTickSteps ((Slot.all.filter fun n => s.occ.get n).map fun n => (.card n, plan.cards.get n)) s := by
  have key (ns : List Slot) (t : State) (h : t.occ = s.occ) :
      ns.foldl (fun t n => if t.occ.get n then runTickStep (.card n) (plan.cards.get n) t else t) t =
        runTickSteps ((ns.filter fun n => s.occ.get n).map fun n => (.card n, plan.cards.get n)) t := by
    induction ns generalizing t with
    | nil => rfl
    | cons n ns ih =>
      rw [List.foldl_cons, h, List.filter_cons]
      split
      · exact ih _ ((runTickStep_registryFrame _ _ t).occ.trans h)
      · exact ih t h
  exact key Slot.all s rfl

/-- What TICK ticks when DIVCNT expires, in order (R160). -/
def State.deviceOrder (s : State) : List (TickTarget × TickStep) :=
  (.video, s.env.ticks.video) ::
    (Slot.all.filter fun n => s.occ.get n).map (fun n => (.card n, s.env.ticks.cards.get n)) ++
    s.env.ticks.misc.zipIdx.map (fun p => (.misc p.2, p.1))

theorem tickOrder_eq (s : State) :
    s.tickOrder = (.cpu, s.env.ticks.cpu) :: if s.divcnt ≤ 1 then s.deviceOrder else [] := rfl

theorem tickDevices_eq_runTickSteps (s : State) {t : State} (h : t.occ = s.occ) :
    tickDevices s.env.ticks t = runTickSteps s.deviceOrder t := by
  rw [tickDevices, tickMisc_eq_runTickSteps, tickCards_eq_runTickSteps,
    (runTickStep_registryFrame _ _ t).occ, h, ← runTickSteps_append]
  rfl

/-! ## An access at the port -/

theorem effect_access (a : Access) : effect a.instr = runAccess a := by cases a <;> rfl

theorem accessSync_access (a : Access) : accessSync a.instr = some false := by cases a <;> rfl

theorem perform_events {i : Instr} {body : State → State × Word16} {s : State} (h : (body s).1.events = s.events) :
    (perform i body s).1.events = s.events := by
  rw [perform]
  split
  · exact h
  · rfl

/-- A nested operation is reported by the chain, not by itself. -/
theorem runNested_events (i : Instr) (s : State) : (runNested i s).1.events = s.events := by
  cases i with
  | swget | swset | swtgl | slotsel | spdreq | spdrel => exact perform_events rfl
  | bankrd b p o =>
    refine perform_events ?_
    rw [bankrdBody]
    split <;> rfl
  | _ => rfl

/-- Nothing in an access reports a tick. -/
theorem runAccess_no_tick (a : Access) (k : TickTarget) {s : State} (h : Event.tick k ∉ s.events) :
    Event.tick k ∉ (runAccess a s).1.events := by
  have hlog (e : Event) (he : Event.tick k ≠ e) (t : State) (ht : Event.tick k ∉ t.events) :
      Event.tick k ∉ (t.log e).events := by
    simp [ht, he]
  have hstable : NestedStable fun t => Event.tick k ∉ t.events :=
    { call := fun c => hlog (.call c) nofun
      answer := fun i r => hlog (.nested i r) nofun
      fresh := fun _ ht => ht
      nested := fun i t ht => by rwa [runNested_events] }
  refine runAccess_keeps hstable (fun _ _ ht => ht) (fun t ht => ?_) (fun t ht => ?_) (fun t w o v ht => ?_) h
  · rwa [(suspendRun_frame t).events]
  · rwa [(resumeRun_frame t).events]
  · rwa [storeThrough_eq]

/-- An access at the port completes, keeps what an access with SYNC = 0 keeps, and ticks nothing. -/
theorem exec_access_effect (a : Access) {s : State} (hb : s.booted = true) :
    ∃ t, exec a.instr s = .next t ∧ AccessEffect false s t ∧ ∀ k, Event.tick k ∉ t.events := by
  have heffect := effect_of_access (accessSync_access a) s.clearEvents
  rw [effect_access] at heffect
  exact ⟨_, exec_access a s hb, ⟨heffect.frame, heffect.cards, nofun⟩,
    fun k => runAccess_no_tick a k (s := s.clearEvents) List.not_mem_nil⟩

theorem AccessEffect.booted {sync : Bool} {s t : State} (h : AccessEffect sync s t) : t.booted = s.booted := by
  obtain ⟨-, -, -, -, -, -, hbooted, -⟩ := h.frame
  exact hbooted

/-! ## The accesses of tick steps at the port -/

theorem atPort_cons {a : Access} {s t : State} (as : List Access) (h : exec a.instr s = .next t) :
    atPort (a :: as) s = ((atPort as t).1, t.events ++ .access a t.response.rdata :: (atPort as t).2) := by
  rw [atPort, h]

theorem atPort_effect (as : List Access) {s : State} (hb : s.booted = true) : AccessEffect false s (atPort as s).1 := by
  induction as generalizing s with
  | nil => exact .refl false s
  | cons a as ih =>
    obtain ⟨t, ht, heffect, -⟩ := exec_access_effect a hb
    rw [atPort_cons as ht]
    exact heffect.trans (ih (heffect.booted.trans hb))

theorem atPort_no_tick (as : List Access) {s : State} (hb : s.booted = true) (k : TickTarget) :
    Event.tick k ∉ (atPort as s).2 := by
  induction as generalizing s with
  | nil => exact List.not_mem_nil
  | cons a as ih =>
    obtain ⟨t, ht, heffect, htick⟩ := exec_access_effect a hb
    rw [atPort_cons as ht]
    simp [htick k, ih (heffect.booted.trans hb)]

theorem ticksAtPort_effect (ps : List (TickTarget × TickStep)) {s : State} (hb : s.booted = true) :
    AccessEffect false s (ticksAtPort ps s).1 := by
  induction ps generalizing s with
  | nil => exact .refl false s
  | cons p ps ih =>
    have hfirst := atPort_effect p.2.kept hb
    exact hfirst.trans (ih (hfirst.booted.trans hb))

/-- The ticks the outside sees are those of the list. -/
theorem tick_mem_ticksAtPort (ps : List (TickTarget × TickStep)) {s : State} (hb : s.booted = true) (k : TickTarget) :
    Event.tick k ∈ (ticksAtPort ps s).2 ↔ k ∈ ps.map Prod.fst := by
  induction ps generalizing s with
  | nil => exact iff_of_false List.not_mem_nil List.not_mem_nil
  | cons p ps ih =>
    have hbooted := (atPort_effect p.2.kept hb).booted.trans hb
    simp [ticksAtPort, atPort_no_tick p.2.kept hb k, ih hbooted]

/-- Tick steps without accesses do nothing at the port. -/
theorem ticksAtPort_of_no_accesses (ps : List (TickTarget × TickStep)) (s : State) (h : ∀ p ∈ ps, p.2.kept = []) :
    (ticksAtPort ps s).1 = s := by
  induction ps with
  | nil => rfl
  | cons p ps ih =>
    obtain ⟨hp, hps⟩ := List.forall_mem_cons.mp h
    simp only [ticksAtPort, hp, atPort, ih hps]

/-! ## Inside TICK and at the port -/

theorem OutputsOf.log {s p : State} (h : OutputsOf s p) (e : Event) : OutputsOf (s.log e) p :=
  congrArg (State.log · e) h

theorem OutputsOf.setDivcnt {s p : State} (h : OutputsOf s p) (d : Nat) : OutputsOf (s.setDivcnt d) p :=
  congrArg (State.setDivcnt · d) h

/-- Inside TICK the state went from `s` to `t`; at the port the same accesses led to `p` and showed the events `es`. -/
structure WentAsAtPort (s t p : State) (es : List Event) : Prop where
  outputs : OutputsOf t p
  events : t.events = s.events ++ es
  divcnt : t.divcnt = s.divcnt

theorem WentAsAtPort.trans {s t u p q : State} {es fs : List Event} (h : WentAsAtPort s t p es)
    (k : WentAsAtPort t u q fs) : WentAsAtPort s u q (es ++ fs) :=
  ⟨k.outputs, by rw [k.events, h.events, List.append_assoc], k.divcnt.trans h.divcnt⟩

theorem WentAsAtPort.of_log {s p : State} (h : OutputsOf s p) (e : Event) : WentAsAtPort s (s.log e) p [e] :=
  ⟨h.log e, rfl, rfl⟩

theorem made_eq_kept (p : TickStep) : p.made = p.kept := by
  cases h : p.faultAfter <;> simp [TickStep.made, TickStep.kept, h]

section
variable {s p : State} (h : OutputsOf s p) (hb : p.booted = true)
include h hb

theorem runAccesses_at_port (as : List Access) :
    WentAsAtPort s (runAccesses as s) (atPort as p).1 (atPort as p).2 := by
  induction as generalizing s p with
  | nil => exact ⟨h, (List.append_nil _).symm, rfl⟩
  | cons a as ih =>
    obtain ⟨t, ht, hout, hevents, hdivcnt, hdata⟩ := runAccess_at_port a h hb
    obtain ⟨t', ht', heffect, -⟩ := exec_access_effect a hb
    cases ht.symm.trans ht'
    have haccess : WentAsAtPort s (runAccess a s).1 t t.events := ⟨hout, hevents, hdivcnt⟩
    have hreport := WentAsAtPort.of_log hout (.access a (runAccess a s).2)
    rw [atPort_cons as ht, ← hdata, List.append_cons]
    exact (haccess.trans hreport).trans (ih hreport.outputs (heffect.booted.trans hb))

theorem runTickStep_at_port (k : TickTarget) (step : TickStep) :
    WentAsAtPort s (runTickStep k step s) (atPort step.kept p).1 (.tick k :: (atPort step.kept p).2) := by
  have hreport := WentAsAtPort.of_log h (.tick k)
  rw [runTickStep, made_eq_kept]
  exact hreport.trans (runAccesses_at_port hreport.outputs hb step.kept)

theorem runTickSteps_at_port (ps : List (TickTarget × TickStep)) :
    WentAsAtPort s (runTickSteps ps s) (ticksAtPort ps p).1 (ticksAtPort ps p).2 := by
  induction ps generalizing s p with
  | nil => exact ⟨h, (List.append_nil _).symm, rfl⟩
  | cons x ps ih =>
    have hstep := runTickStep_at_port h hb x.1 x.2
    exact hstep.trans (ih hstep.outputs ((atPort_effect x.2.kept hb).booted.trans hb))

end

/-! ## TICK -/

theorem tickBody_rdata (s : State) : (tickBody s).2 = 0 := by
  simp only [tickBody]
  split <;> rfl

section
variable {s t : State} (hcpu : runTickStep .cpu s.env.ticks.cpu s = t)
include hcpu

theorem tickBody_of_expiry (h : t.divcnt ≤ 1) :
    (tickBody s).1 = tickDevices s.env.ticks (t.setDivcnt t.params.clockDivisor) := by
  simp only [tickBody, hcpu, if_pos (Nat.sub_eq_zero_of_le h)]

theorem tickBody_of_no_expiry (h : ¬ t.divcnt ≤ 1) : (tickBody s).1 = t.setDivcnt (t.divcnt - 1) := by
  simp only [tickBody, hcpu, if_neg (show t.divcnt - 1 ≠ 0 by omega)]

end

/-- The CPU's step, then DIVCNT, then on expiry the devices' steps: TICK's accesses lead where they lead at the port. -/
theorem tickBody_at_port {s : State} (hb : s.booted = true) :
    OutputsOf (tickBody s.clearEvents).1 (ticksAtPort s.tickOrder s).1 ∧
      (tickBody s.clearEvents).1.events = (ticksAtPort s.tickOrder s).2 ∧
      (tickBody s.clearEvents).1.divcnt = if s.divcnt ≤ 1 then s.params.clockDivisor else s.divcnt - 1 := by
  have hframe := runTickStep_registryFrame .cpu s.env.ticks.cpu s.clearEvents
  have hcpu := runTickStep_at_port (s := s.clearEvents) (p := s) rfl hb .cpu s.env.ticks.cpu
  generalize ht : runTickStep .cpu s.env.ticks.cpu s.clearEvents = t at hframe hcpu
  have hdivcnt : t.divcnt = s.divcnt := hcpu.divcnt
  rw [tickOrder_eq]
  split
  · next hexpiry =>
    have hdevices := runTickSteps_at_port (hcpu.outputs.setDivcnt t.params.clockDivisor)
      ((atPort_effect _ hb).booted.trans hb) s.deviceOrder
    rw [tickBody_of_expiry ht (hdivcnt.trans_le hexpiry),
      tickDevices_eq_runTickSteps s.clearEvents (t := t.setDivcnt t.params.clockDivisor) hframe.occ]
    exact ⟨hdevices.outputs, hdevices.events.trans (congrArg (· ++ _) hcpu.events),
      hdevices.divcnt.trans (congrArg Params.clockDivisor hframe.params)⟩
  · next hcounts =>
    rw [tickBody_of_no_expiry ht (by rwa [hdivcnt])]
    exact ⟨hcpu.outputs.setDivcnt _, hcpu.events.trans (List.append_nil _).symm, congrArg (· - 1) hdivcnt⟩

/-- What TICK leaves, in the terms of the port (log 28: DIVCNT = 0 counts as expiry). -/
def State.ticked (s : State) : State :=
  { (ticksAtPort s.tickOrder s).1 with
    divcnt := if s.divcnt ≤ 1 then s.params.clockDivisor else s.divcnt - 1
    response := okResponse 0
    events := (ticksAtPort s.tickOrder s).2 }

theorem exec_tick {s : State} (hb : s.booted = true) (hd : s.inDispatch = false) (hr : s.run = .running) :
    exec .tick s = .next s.ticked := by
  obtain ⟨houtputs, hevents, hdivcnt⟩ := tickBody_at_port hb
  rw [exec_at_top (i := .tick) hb hd rfl rfl (decide_eq_true hr), effect, tickBody_rdata, houtputs, hevents, hdivcnt]
  rfl

/-- What one TICK ticks, in order (R160). -/
theorem tickOrder_targets (s : State) :
    s.tickOrder.map Prod.fst = .cpu ::
      if s.divcnt ≤ 1 then
        .video :: (Slot.all.filter fun n => s.occ.get n).map .card ++ (List.range s.env.ticks.misc.length).map .misc
      else [] := by
  rw [tickOrder_eq, List.map_cons]
  split
  · simp [State.deviceOrder, List.range_eq_range', ← List.zipIdx_map_snd, Function.comp_def]
  · rfl

/-- What holds of the CPU's step and of every device's holds of all steps of one TICK. -/
theorem forall_step_of_tickOrder {P : TickStep → Prop} (s : State) (hcpu : P s.env.ticks.cpu)
    (hvideo : P s.env.ticks.video) (hcards : ∀ n, P (s.env.ticks.cards.get n)) (hmisc : ∀ p ∈ s.env.ticks.misc, P p) :
    ∀ p ∈ s.tickOrder, P p.2 := by
  rw [tickOrder_eq]
  refine List.forall_mem_cons.mpr ⟨hcpu, ?_⟩
  split
  · refine List.forall_mem_append.mpr ⟨List.forall_mem_cons.mpr ⟨hvideo, ?_⟩, ?_⟩
    · exact List.forall_mem_map.mpr fun n _ => hcards n
    · exact List.forall_mem_map.mpr fun p hp => hmisc p.1 (List.fst_mem_of_mem_zipIdx hp)
  · exact fun p hp => absurd hp List.not_mem_nil

/-- Settles O49: TICK does what its steps' accesses do at the port; those keep the scheduler and the registry, and
report no ticks, so the ticks seen are those of the order. -/
theorem tickCountsDownAndTicksDevicesOnExpiry : Obligations.TickCountsDownAndTicksDevicesOnExpiry := by
  intro s hb hd hr
  have heffect := ticksAtPort_effect s.tickOrder hb
  obtain ⟨hocc, hlreg, hpidx, hridx, hrun, -, hbooted, hdispatch, hpending, hparams, -, -⟩ := heffect.frame
  obtain ⟨hcardrun, hsuspset⟩ := heffect.cards rfl
  have hticks (k : TickTarget) : Event.tick k ∈ s.ticked.events ↔ k ∈ s.tickOrder.map Prod.fst :=
    tick_mem_ticksAtPort s.tickOrder hb k
  simp only [tickOrder_targets] at hticks
  refine ⟨s.ticked, exec_tick hb hd hr, rfl, rfl, ?_, fun n => ?_, fun k => ?_, hrun.trans hr, hocc, hlreg, hpidx,
    hridx, hcardrun, hsuspset, hbooted.trans hb, hdispatch.trans hd, hparams, hpending,
    fun hcpu hvideo hcards hmisc => ?_⟩
  · rw [hticks]
    split <;> next h => simp [h]
  · rw [hticks]
    split <;> next h => simp [h, Slot.mem_all]
  · rw [hticks]
    split <;> next h => simp [h]
  · have hnone := ticksAtPort_of_no_accesses s.tickOrder s
      (forall_step_of_tickOrder (P := fun p => p.kept = []) s hcpu hvideo hcards hmisc)
    rw [State.ticked, hnone]

end Sys2Proof.Machine
end

section
/-! Proofs of the statements about refusals (60_exceptions.md R170, R175, R178). -/

namespace Sys2Proof.Machine

/-! ## How a transaction at the port ends (30_encoding.md R73) -/

/-- Refusing writes the outputs alone. -/
theorem exec_turnedAway {i : Instr} {s : State} (h : accepted i s = false) : exec i s = .next s.turnedAway :=
  exec_refused h

/-- A transaction ends with OK, or as a refused one (R170, R178). -/
theorem exec_ends (i : Instr) (s : State) :
    ∃ t, exec i s = .next t ∧ (t.response.status = .ok ∨ t = s.turnedAway) := by
  rw [exec_eq_effect]
  obtain ⟨-, ht⟩ | ⟨-, ht⟩ := transact_cases (rfl : transact i (effect i) s = _)
  · exact ⟨_, ht, .inl rfl⟩
  · exact ⟨_, ht, .inr rfl⟩

/-- Of the step's three branches, the first and the last end in a next state by themselves. -/
theorem step_ends (s : State) : ∃ t, step s = .next t := by
  cases hp : s.pending with
  | nil => exact ⟨s, by rw [step, hp]⟩
  | cons r rest =>
    cases hd : decode r.word with
    | ok i =>
      obtain ⟨t, ht, -⟩ := exec_ends i (s.take r rest)
      exact ⟨t, (step_of_decode_ok hp hd).trans ht⟩
    | error e => exact ⟨_, step_of_decode_error hp hd⟩

/-- Settles O8: a transaction that answers REFUSED has not ended with OK. -/
theorem nothingStopsAndARefusalChangesNothing : Obligations.NothingStopsAndARefusalChangesNothing := by
  refine ⟨step_ends, fun i s => ?_⟩
  obtain ⟨t, ht, hok | haway⟩ := exec_ends i s
  · exact ⟨t, ht, fun hrefused => by rw [hok] at hrefused; cases hrefused⟩
  · exact ⟨t, ht, fun _ => haway⟩

/-! ## The preconditions of the transactions' own rules (R175 (5)) -/

/-- R175 (5): whatever the other cases say, the failed precondition refuses. -/
theorem exec_of_ownPrecondition_false {i : Instr} {s : State} (h : ownPrecondition s i = false) :
    exec i s = .next s.turnedAway :=
  exec_turnedAway (by rw [accepted, h, Bool.and_false])

/-- R192: ROMLOAD's two preconditions, the stream's length and, after the first reset, RUN. -/
theorem ownPrecondition_romload_iff (s : State) : ownPrecondition s .romload = true ↔
    s.env.romStream.length = 0x4000 ∧ (s.booted = true → s.run = .stopped) := by
  rw [ownPrecondition]
  cases s.booted <;> simp

/-- Settles O12: each clause is the precondition of one transaction, failed. -/
theorem ownPreconditionFailuresAreRefused : Obligations.OwnPreconditionFailuresAreRefused := by
  intro s
  refine ⟨fun id h => ?ladd, fun n h => ?catt, fun n h => ⟨?cdet, ?crecfg⟩, fun p o v => ?bankwr, fun h => ?tick,
    fun h => ?resume, fun h => ?start, fun h => ?romloadLength, fun hb hr => ?romloadRun⟩
    <;> apply exec_of_ownPrecondition_false
  case ladd => rw [ownPrecondition, h]; rfl
  case catt => rw [ownPrecondition, h]; rfl
  case cdet => exact h
  case crecfg => exact h
  case bankwr => rfl
  case tick => exact decide_eq_false h
  case resume => exact decide_eq_false (not_not_intro h)
  case start => exact decide_eq_false (not_not_intro h)
  case romloadLength =>
    exact Bool.eq_false_iff.mpr fun hown => h ((ownPrecondition_romload_iff s).mp hown).1
  case romloadRun =>
    exact Bool.eq_false_iff.mpr fun hown => hr (((ownPrecondition_romload_iff s).mp hown).2 hb)

end Sys2Proof.Machine
end

section
/-! Proofs of the statements about when a transaction is refused by the machine's phase: before the first reset, inside
a dispatch, and Running (70_reset_and_hazards.md R194, R200, R204; 60_exceptions.md R175 (2) to (4)). -/

namespace Sys2Proof.Machine

/-! ## Before the first reset (R194, R175 (2)) -/

theorem exec_refused_before_reset {i : Instr} {s : State} (hb : s.booted = false)
    (hi : allowedBeforeReset i = false) : exec i s = .next s.turnedAway :=
  exec_turnedAway (by simp [accepted, hb, hi])

/-- Settles O9: the three transactions set apart are those R175 (2) allows. -/
theorem beforeTheFirstResetOnlyThreeAreAccepted : Obligations.BeforeTheFirstResetOnlyThreeAreAccepted := by
  intro i s hb hcoldrst hromload hbankwr
  refine exec_refused_before_reset hb ?_
  cases i with
  | coldrst => exact absurd rfl hcoldrst
  | romload => exact absurd rfl hromload
  | bankwr b p o v => exact absurd rfl (hbankwr b p o v)
  | _ => rfl

/-! ## Inside a dispatch (R204, R175 (3)) -/

theorem exec_refused_in_dispatch {i : Instr} {s : State} (hd : s.inDispatch = true)
    (hi : allowedInDispatch i = false) : exec i s = .next s.turnedAway :=
  exec_turnedAway (by simp [accepted, hd, hi])

/-- As an operation of a callback, what is not allowed has no effect, for it is none of the seven. -/
theorem runNested_of_not_allowed {i : Instr} (s : State) (hi : allowedInDispatch i = false) :
    runNested i s = (s, refusedResponse) := by
  cases i with
  | swget | swset | swtgl | slotsel | bankrd | spdreq | spdrel => cases hi
  | _ => rfl

/-- Settles O10: none of the listed transactions is allowed in a dispatch. -/
theorem insideADispatchTheRestIsRefused : Obligations.InsideADispatchTheRestIsRefused := by
  intro i s hd hlist
  have hi : allowedInDispatch i = false := by
    rcases hlist with ⟨_, rfl⟩ | ⟨_, rfl⟩ | ⟨_, rfl⟩ | ⟨_, rfl⟩ | ⟨_, rfl⟩ | rfl | rfl | ⟨_, _, rfl⟩ |
      ⟨_, _, _, _, rfl⟩ | rfl | rfl | rfl | rfl | rfl | rfl | rfl | rfl | rfl | ⟨_, _, _, rfl⟩ | ⟨_, _, _, rfl⟩ |
      ⟨_, _, _, rfl⟩ | ⟨_, _, _, rfl⟩ <;> rfl
  exact ⟨exec_refused_in_dispatch hd hi, runNested_of_not_allowed s hi⟩

/-! ## At top level while Running (R200, R175 (4)) -/

theorem exec_refused_while_running {i : Instr} {s : State} (hd : s.inDispatch = false) (hr : s.run = .running)
    (hi : isStructural i = true) : exec i s = .next s.turnedAway :=
  exec_turnedAway (by simp [accepted, quiescent, hd, hr, hi])

/-- Settles O11: each of the listed transactions is a structural mutation. -/
theorem structuralMutationNeedsQuiescence : Obligations.StructuralMutationNeedsQuiescence := by
  intro i s hd hr hlist
  refine exec_refused_while_running hd hr ?_
  rcases hlist with ⟨_, _, rfl⟩ | ⟨_, rfl⟩ | rfl | rfl | ⟨_, rfl⟩ | ⟨_, rfl⟩ | ⟨_, rfl⟩ | ⟨_, rfl⟩ | ⟨_, rfl⟩ | rfl
    <;> rfl

end Sys2Proof.Machine
end

section
/-! Proofs of the statements about the resets and the ROM load (70_reset_and_hazards.md R190 to R193). -/

namespace Sys2Proof.Machine

/-! ## COLDRST (R190) -/

/-- What COLDRST leaves but for index, tables and outputs. -/
def State.coldState (s : State) : State := s.coldRegisters.forgetRam

theorem accepted_coldrst {s : State} (hd : s.inDispatch = false) : accepted .coldrst s = true := by
  simp [accepted, Instr.wellFormed, allowedBeforeReset, isStructural, ownPrecondition, hd]

theorem coldrstBody_eq (s : State) : coldrstBody s = (s.coldState.reindexed.remapped, 0) := by
  rw [coldrstBody, reconf_eq_remapped]
  rfl

/-- COLDRST is accepted in any RUN and before the first reset too. -/
theorem exec_coldrst {s : State} (hd : s.inDispatch = false) :
    exec .coldrst s = .next (s.coldState.reindexed.remapped.answered 0) := by
  rw [exec_accepted coldrstBody rfl (accepted_coldrst hd), coldrstBody_eq]
  rfl

/-- The banks COLDRST does not make unspecified keep their cells, written or not. -/
theorem cell_coldState (s : State) {b : Bank} (p o : Byte) (hb : b.ramType = false) :
    s.coldState.cell b p o = s.cell b p o := by
  have hread : s.coldState.mem.read? (cellNumber b p o) = s.mem.read? (cellNumber b p o) := by
    rw [State.coldState, State.forgetRam_mem, Memory.read_forget, cellIsRam_cellNumber, hb]
    rfl
  simp only [State.cell, State.epochOf, hb, hread]
  rfl

/-- The RAM-type banks lose their stored bytes. -/
theorem read_coldState (s : State) {b : Bank} (p o : Byte) (hb : b.ramType = true) :
    s.coldState.mem.read? (cellNumber b p o) = none := by
  rw [State.coldState, State.forgetRam_mem, Memory.read_forget, cellIsRam_cellNumber, hb, if_pos rfl]

/-- Settles O55: COLDRST is accepted, and its effect is the cold state with its index and tables. -/
theorem coldResetState : Obligations.ColdResetState := by
  intro s hd
  refine ⟨_, exec_coldrst hd, fun b p o hb => cell_coldState s p o hb, fun b p o hb => read_coldState s p o hb,
    fun n => ?_, rfl⟩
  exact ⟨PerSlot.get_allOff n, PerSlot.get_allOff n, PerSlot.get_allOff n⟩

/-! ## The tables after COLDRST (R193) -/

theorem tableEntry_closedWriteTable (x : MapInputs) {p : Nat} (h : p < 256) :
    tableEntry (closedWriteTable x) p = closedWrite x p :=
  tableEntry_tabulate (closedWrite x) h

theorem State.mapCurrent.readEntry {s : State} (h : s.mapCurrent) {p : Nat} (hp : p < 256) :
    s.readEntry p = closedRead s.mapInputs p := by
  obtain ⟨hrt, -⟩ := h
  rw [State.readEntry, hrt, tableEntry_closedReadTable, if_pos hp]

theorem State.mapCurrent.writeEntry {s : State} (h : s.mapCurrent) {p : Nat} (hp : p < 256) :
    s.writeEntry p = closedWrite s.mapInputs p := by
  obtain ⟨-, hwt⟩ := h
  rw [State.writeEntry, hwt, tableEntry_closedWriteTable _ hp]

/-- The inputs of RECONF with every switch off, every slot empty and no active slot. -/
def bareInputs : MapInputs := ⟨Switches.allOff, PerSlot.allOff, none⟩

theorem closedRam_allOff (p : Nat) : closedRam Switches.allOff false p = some ⟨.main, BitVec.ofNat 8 p⟩ := by
  simp [closedRam, Switches.allOff]

theorem closedRead_bare_ram {p : Nat} (h : p ≤ 0xBF) : closedRead bareInputs p = some ⟨.main, BitVec.ofNat 8 p⟩ := by
  rw [closedRead]
  split
  · rfl
  · exact closedRam_allOff p

theorem closedWrite_bare_ram {p : Nat} (h : p ≤ 0xBF) : closedWrite bareInputs p = some ⟨.main, BitVec.ofNat 8 p⟩ := by
  rw [closedWrite]
  split
  · rfl
  · exact closedRam_allOff p

/-- Without cards every page of `$C0..$CF` is blank, but the motherboard's ROM of slot 3 at `$C3`. -/
theorem closedRead_bare_slots {p : Nat} (h : 0xC0 ≤ p ∧ p ≤ 0xCF) :
    closedRead bareInputs p = if p = 0xC3 then some ⟨.crom, 3⟩ else some ⟨.blank, 0⟩ := by
  have hrows : ∀ k < 16, closedRead bareInputs (0xC0 + k) =
      if 0xC0 + k = 0xC3 then some ⟨.crom, 3⟩ else some ⟨.blank, 0⟩ := by decide
  obtain ⟨k, rfl⟩ := Nat.exists_eq_add_of_le h.1
  exact hrows k (by omega)

theorem closedRead_bare_rom {p : Nat} (h : 0xD0 ≤ p) :
    closedRead bareInputs p = some ⟨.rom, BitVec.ofNat 8 (p - 0xD0)⟩ := by
  rw [closedRead, if_neg (by omega), if_neg (by omega), if_neg (by omega), if_neg (by omega), if_neg (by omega)]
  rfl

theorem closedWrite_bare_none {p : Nat} (h : 0xC0 ≤ p) : closedWrite bareInputs p = none := by
  by_cases hio : p ≤ 0xCF
  · exact closedWrite_io _ ⟨h, hio⟩
  · rw [closedWrite_high _ (by omega)]
    rfl

/-- Settles O56: the tables are those of the cold state, whose switches are SW_DEFAULT and whose slots are empty. -/
theorem coldResetTables : Obligations.ColdResetTables := by
  intro s t hd h
  rw [exec_coldrst hd] at h
  cases h
  have hmap : (s.coldState.reindexed.remapped.answered 0).mapCurrent := remapped_mapCurrent _
  have hentries {p : Nat} (hp : p < 256) := And.intro (hmap.readEntry hp) (hmap.writeEntry hp)
  refine ⟨fun p hp => hentries hp, fun hsw => ?_⟩
  have hinputs : (s.coldState.reindexed.remapped.answered 0).mapInputs = bareInputs :=
    congrArg (MapInputs.mk · PerSlot.allOff none) hsw
  rw [hinputs] at hentries
  refine ⟨fun p hp => ?_, fun p h0 h1 h3 => ?_, ?_, fun p h0 h1 => ?_, fun p h0 h1 => ?_⟩
  · obtain ⟨hread, hwrite⟩ := hentries (p := p) (by omega)
    exact ⟨hread.trans (closedRead_bare_ram hp), hwrite.trans (closedWrite_bare_ram hp)⟩
  · rw [(hentries (by omega)).1, closedRead_bare_slots ⟨h0, h1⟩, if_neg h3]
  · rw [(hentries (by omega)).1, closedRead_bare_slots (by omega), if_pos rfl]
  · rw [(hentries (by omega)).1, closedRead_bare_rom h0]
  · rw [(hentries (by omega)).2, closedWrite_bare_none h0]

/-! ## WARMRST (R191) -/

/-- One RECONF after switches and latch are written. -/
theorem warmrstBody_eq (s : State) :
    warmrstBody s = (({ s with
      sw := s.params.swDefault
      asl := if s.params.warmClearsAsl then none else s.asl } : State).remapped, 0) := by
  simp only [warmrstBody, reconf_eq_remapped]
  split <;> rfl

/-- Settles O57: WARMRST is accepted when quiescent. -/
theorem warmResetState : Obligations.WarmResetState := by
  intro s hb hd hr
  have ha : accepted .warmrst s = true := (accepted_iff_at_top hb hd).mpr ⟨rfl, fun _ => hr, rfl⟩
  rw [exec_accepted warmrstBody rfl ha, warmrstBody_eq]
  rfl

/-! ## ROMLOAD (R192) -/

theorem accepted_romload {s : State} (hd : s.inDispatch = false) (ho : ownPrecondition s .romload = true) :
    accepted .romload s = true := by
  simp [accepted, Instr.wellFormed, allowedBeforeReset, isStructural, hd, ho]

section
variable {s : State} (hlen : s.env.romStream.length = 0x4000)
include hlen

/-- The first 0x1000 bytes are in CROM; the store to ROM does not reach them. -/
theorem romload_cell_crom {i : Nat} (hi : i < s.env.romStream.length) (h : i < 0x1000) :
    (romloadBody s).1.cell .crom (BitVec.ofNat 8 (i / 256)) (BitVec.ofNat 8 (i % 256)) = s.env.romStream[i] := by
  rw [romloadBody, cell_storeBlock_other _ _ _ (by decide) (by simp [hlen]),
    cell_storeBlock_same s (by decide) (by simp [hlen, h]) (by omega), List.getElem_take]

/-- The byte at `i` of the stream is byte `i - 0x1000` of ROM. -/
theorem romload_cell_rom {i : Nat} (hi : i < s.env.romStream.length) (h : 0x1000 ≤ i) :
    (romloadBody s).1.cell .rom (BitVec.ofNat 8 ((i - 0x1000) / 256)) (BitVec.ofNat 8 (i % 256)) =
      s.env.romStream[i] := by
  obtain ⟨j, rfl⟩ := Nat.exists_eq_add_of_le h
  have hoffset : (0x1000 + j) % 256 = j % 256 := by omega
  rw [hoffset, Nat.add_sub_cancel_left, romloadBody,
    cell_storeBlock_same _ (by decide) (by simp; omega) (by omega), List.getElem_drop]

theorem romload_cell_other {b : Bank} (p o : Byte) (hcrom : b ≠ .crom) (hrom : b ≠ .rom) :
    (romloadBody s).1.cell b p o = s.cell b p o := by
  rw [romloadBody, cell_storeBlock_other _ p o hrom (by simp [hlen]),
    cell_storeBlock_other _ p o hcrom (by simp [hlen])]

end

/-- Settles O58: ROMLOAD is accepted, and its two block stores put each byte where it belongs. -/
theorem romloadPlacesTheStream : Obligations.RomloadPlacesTheStream := by
  intro s hd hlen hphase
  have ho : ownPrecondition s .romload = true :=
    (ownPrecondition_romload_iff s).mpr ⟨hlen, fun hb => hphase.resolve_left (by rw [hb]; decide)⟩
  have hlen' : s.clearEvents.env.romStream.length = 0x4000 := hlen
  exact ⟨_, exec_accepted romloadBody rfl (accepted_romload hd ho),
    fun i hi => ⟨romload_cell_crom hlen' hi, romload_cell_rom hlen' hi⟩,
    fun b p o hcrom hrom => romload_cell_other hlen' p o hcrom hrom, rfl⟩

end Sys2Proof.Machine
end

section
/-! Rules about the invariant (70_reset_and_hazards.md R203; 10_state.md R14, R25): what it does not look at, and what
stores, SUSPEND and RESUME, and the coming and going of cards keep of it. -/

namespace Sys2Proof.Machine

/-! ## What the invariant does not look at -/

section
variable {s : State} (h : s.Inv)
include h

theorem State.Inv.clearEvents : s.clearEvents.Inv :=
  ⟨h.memory, h.quiet, h.divisor, h.map, h.index, h.clock, h.cards⟩

theorem State.Inv.respond (r : Response) : (s.respond r).Inv :=
  ⟨h.memory, h.quiet, h.divisor, h.map, h.index, h.clock, h.cards⟩

theorem State.Inv.take (r : Request) (rest : List Request) : (s.take r rest).Inv :=
  ⟨h.memory, h.quiet, h.divisor, h.map, h.index, h.clock, h.cards⟩

theorem State.Inv.log (e : Event) : (s.log e).Inv :=
  ⟨h.memory, h.quiet, h.divisor, h.map, h.index, h.clock, h.cards⟩

theorem State.Inv.nextFresh : s.nextFresh.Inv :=
  ⟨h.memory, h.quiet, h.divisor, h.map, h.index, h.clock, h.cards⟩

theorem State.Inv.setRun (r : RunState) : (s.setRun r).Inv :=
  ⟨h.memory, h.quiet, h.divisor, h.map, h.index, h.clock, h.cards⟩

theorem State.Inv.setSpeed (xs : List Word16) : (s.setSpeed xs).Inv :=
  ⟨h.memory, h.quiet, h.divisor, h.map, h.index, h.clock, h.cards⟩

end

/-! ## Memory -/

theorem memoryOk_storeCell {s : State} (h : s.memoryOk) {b : Bank} {p : Byte} (hp : p.toNat < b.pages) (o v : Byte) :
    (s.storeCell b p o v).memoryOk := by
  obtain ⟨hwf, hstorable⟩ := h
  by_cases hb : b = .blank
  · rw [State.memoryOk, State.storeCell_mem, if_pos hb]
    exact ⟨hwf, hstorable⟩
  rw [State.memoryOk, State.storeCell_mem, if_neg hb]
  refine ⟨Memory.wf_write hwf _ v, fun c hc => ?_⟩
  rcases Memory.mem_write hc with rfl | hc
  · rw [cellStorable_cellNumber]
    exact decide_eq_true ⟨hb, hp⟩
  · exact hstorable c hc

theorem memoryOk_storeBlock {s : State} (h : s.memoryOk) {b : Bank} {bytes : List Byte} (hb : b ≠ .blank)
    (hlen : bytes.length ≤ b.pages * 256) : (s.storeBlock b 0 bytes).memoryOk := by
  obtain ⟨hwf, hstorable⟩ := h
  refine ⟨Memory.wf_writeBlock hwf _ bytes, fun c hc => ?_⟩
  rcases Memory.mem_writeBlock hc with ⟨hlo, hhi⟩ | hc
  · exact cellStorable_block b bytes.length c.1 hb hlen (by have := bank_pages_le b; omega) hlo hhi
  · exact hstorable c hc

theorem memoryOk_storeImages {s : State} (h : s.memoryOk) (n : Slot) (c : Card) : (s.storeImages n c).memoryOk :=
  memoryOk_storeBlock (b := .exp n) (memoryOk_storeBlock (b := .fw n) h nofun (by simp [Bank.pages])) nofun
    (by simp [Bank.pages])

theorem memoryOk_forgetRam {s : State} (h : s.memoryOk) : s.forgetRam.memoryOk := by
  obtain ⟨hwf, hstorable⟩ := h
  exact ⟨Memory.wf_forget hwf _, fun c hc => hstorable c (Memory.mem_forget hc)⟩

theorem State.Inv.of_memory {s t : State} (h : s.Inv) (ht : t = { s with mem := t.mem }) (hm : t.memoryOk) : t.Inv := by
  rw [ht] at hm ⊢
  exact ⟨hm, h.quiet, h.divisor, h.map, h.index, h.clock, h.cards⟩

/-! ## The records of the cards (10_state.md R25) -/

theorem cardsOk_congr {s t : State} (ho : t.occ = s.occ) (hc : t.cardrun = s.cardrun) (hu : t.suspset = s.suspset)
    (h : s.cardsOk) : t.cardsOk := by
  rw [State.cardsOk, ho, hc, hu]
  exact h

/-- A card SUSPEND records was running, so its slot is occupied, and it is paused; a card recorded before does not
run. -/
theorem cardsOk_suspendRun {s : State} (h : s.cardsOk) : s.suspendRun.cardsOk := by
  intro n
  obtain ⟨hrecorded, hrunning⟩ := h n
  rw [suspendRun_suspset, suspendRun_cardrun, (suspendRun_frame s).occ]
  cases hw : s.willSuspend n with
  | true =>
    obtain ⟨-, ho, -⟩ := willSuspend_iff.mp hw
    exact ⟨fun _ => ⟨ho, Bool.and_false _⟩, fun _ => ho⟩
  | false =>
    rw [Bool.or_false, Bool.not_false, Bool.and_true]
    exact ⟨hrecorded, hrunning⟩

/-- RESUME of a Paused machine leaves no card recorded, and starts only cards in occupied slots. -/
theorem cardsOk_resumeRun {s : State} (h : s.cardsOk) : s.resumeRun.cardsOk := by
  intro n
  obtain ⟨hrecorded, hrunning⟩ := h n
  rw [resumeRun_suspset, resumeRun_cardrun, (resumeRun_frame s).occ]
  split
  · refine ⟨nofun, fun hc => ?_⟩
    rcases Bool.or_eq_true_iff.mp hc with hu | hc
    · exact (hrecorded hu).1
    · exact hrunning hc
  · exact ⟨hrecorded, hrunning⟩

theorem cardsOk_allOff {s : State} (hc : s.cardrun = PerSlot.allOff) (hu : s.suspset = PerSlot.allOff) : s.cardsOk := by
  intro n
  rw [hc, hu, PerSlot.get_allOff]
  exact ⟨nofun, nofun⟩

/-- A card that is not recorded may come, running, or go (44_cards.md R150, R151). -/
theorem cardsOk_setCard {s : State} (h : s.cardsOk) {n : Slot} (hu : s.suspset.get n = false) (b : Bool) :
    (s.setCard n b b).cardsOk := by
  intro m
  rw [State.setCard_occ, State.setCard_cardrun, State.setCard_suspset]
  by_cases hm : m = n
  · rw [hm, hu, PerSlot.get_set_same, PerSlot.get_set_same]
    exact ⟨nofun, id⟩
  · rw [PerSlot.get_set_other _ _ hm, PerSlot.get_set_other _ _ hm]
    exact h m

theorem cardsOk_forgetRecord {s : State} (h : s.cardsOk) (n : Slot) : (s.setSuspended n false).cardsOk := by
  intro m
  obtain ⟨hrecorded, hrunning⟩ := h m
  rw [State.setSuspended_occ, State.setSuspended_cardrun, State.setSuspended_suspset, PerSlot.get_set]
  split
  · exact ⟨nofun, hrunning⟩
  · exact ⟨hrecorded, hrunning⟩

end Sys2Proof.Machine
end

section
/-! Proof of the statement about the invariant (70_reset_and_hazards.md R203; 10_state.md R17, R24, R25): every effect
of an accepted transaction keeps it, and so does every step. -/

namespace Sys2Proof.Machine

/-! ## The scheduler's transactions (45_scheduler.md R161 to R165) -/

theorem SchedulerFrame.mapCurrent {s t : State} (hf : SchedulerFrame s t) (h : s.mapCurrent) : t.mapCurrent := by
  rw [State.mapCurrent, State.mapInputs, hf.rt, hf.wt, hf.sw, hf.occ, hf.asl]
  exact h

theorem SchedulerFrame.inv {s t : State} (hf : SchedulerFrame s t) (h : s.Inv) (hc : s.cardsOk → t.cardsOk) :
    t.Inv where
  memory := by rw [State.memoryOk, hf.mem]; exact h.memory
  quiet := hf.inDispatch.trans h.quiet
  divisor := by rw [hf.params]; exact h.divisor
  map hb := hf.mapCurrent (h.map (hf.booted ▸ hb))
  index hb := by
    rw [State.indexCurrent, hf.pidx, hf.ridx, hf.lreg]
    exact h.index (hf.booted ▸ hb)
  clock hb := by
    rw [State.clockOk, hf.divcnt, hf.params]
    exact h.clock (hf.booted ▸ hb)
  cards hb := hc (h.cards (hf.booted ▸ hb))

section
variable {s : State} (h : s.Inv)
include h

theorem State.Inv.pauseRun : s.pauseRun.Inv := by
  rw [State.pauseRun]
  split
  · exact h.setRun .paused
  · exact h

theorem State.Inv.suspendRun : s.suspendRun.Inv := (suspendRun_frame s).inv h cardsOk_suspendRun

theorem State.Inv.resumeRun : s.resumeRun.Inv := (resumeRun_frame s).inv h cardsOk_resumeRun

theorem startBody_inv : (startBody s).1.Inv := by
  simp only [startBody]
  split
  · exact h.setRun .running
  · exact h

/-- STOP forgets every recorded card. -/
theorem stopBody_inv : (stopBody s).1.Inv :=
  (stopBody_frame s).inv h fun hc n =>
    ⟨fun hu => absurd hu (ne_of_eq_of_ne (PerSlot.get_allOff n) nofun), (hc n).2⟩

end

/-! ## The transactions that rebuild the map or the index (40_switches.md R94, 43_dispatch.md R139) -/

section
variable {s : State} (h : s.Inv)
include h

/-- Of what RECONF reads, switches and latch are not bound by the invariant. -/
theorem State.Inv.remapped (sw : Switches) (asl : Option Slot) :
    ({ s with sw := sw, asl := asl } : State).remapped.Inv :=
  ⟨h.memory, h.quiet, h.divisor, fun _ => remapped_mapCurrent _, h.index, h.clock, h.cards⟩

theorem State.Inv.reindexed (ls : List Listener) : ({ s with lreg := ls } : State).reindexed.Inv :=
  ⟨h.memory, h.quiet, h.divisor, h.map, fun _ => ⟨rfl, rfl⟩, h.clock, h.cards⟩

/-- Through RECONF's own steps, as the transactions run it. -/
theorem State.Inv.reconf (sw : Switches) (asl : Option Slot) :
    ({ s with sw := sw, asl := asl } : State).reconf.Inv := by
  rw [reconf_eq_remapped]
  exact h.remapped sw asl

theorem warmrstBody_inv : (warmrstBody s).1.Inv := by
  rw [warmrstBody_eq]
  exact h.remapped _ _

end

/-! ## Cards (44_cards.md R150 to R152), COLDRST and ROMLOAD -/

section
variable {s : State} (h : s.Inv)
include h

/-- A recorded card is in an occupied slot, so none is recorded in the empty one. -/
theorem attach_inv {n : Slot} (ho : s.occ.get n = false) : (s.attach n).Inv := by
  rw [attach_eq]
  refine ⟨memoryOk_storeImages h.memory n _, h.quiet, h.divisor, fun _ => remapped_mapCurrent _,
    fun _ => reindexed_remapped_indexCurrent _, h.clock, fun hb => ?_⟩
  have hcards := h.cards hb
  have hu : s.suspset.get n = false := by
    refine Bool.eq_false_iff.mpr fun hu => ?_
    obtain ⟨hocc, -⟩ := (hcards n).1 hu
    rw [ho] at hocc
    cases hocc
  exact cardsOk_setCard hcards hu true

theorem cattBody_inv {n : Slot} (ho : s.occ.get n = false) : (cattBody n s).1.Inv := by
  cases hi : (s.env.cards.get n).initOk with
  | true => rw [cattBody_of_initOk hi]; exact attach_inv h ho
  | false => rw [cattBody_of_not_initOk hi]; exact h

theorem cdetBody_inv (n : Slot) : (cdetBody n s).1.Inv := by
  rw [cdetBody_eq]
  exact ⟨h.memory, h.quiet, h.divisor, fun _ => remapped_mapCurrent _, fun _ => reindexed_remapped_indexCurrent _,
    h.clock, fun hb => cardsOk_setCard (cardsOk_forgetRecord (h.cards hb) n) (PerSlot.get_set_same _ n false) false⟩

theorem reattach_inv (n : Slot) : (reattach n s).1.Inv := by
  have hempty : (cdetBody n s).1.occ.get n = false := by
    rw [cdetBody_eq]
    exact PerSlot.get_set_same s.occ n false
  exact cattBody_inv (cdetBody_inv h n) hempty

theorem crecfgBody_inv (n : Slot) : (crecfgBody n s).1.Inv := by
  by_cases hr : s.run = .running
  · rw [crecfgBody_of_running hr]
    exact (reattach_inv h.suspendRun n).resumeRun
  · rw [crecfgBody_of_not_running hr]
    exact reattach_inv h n

/-- Everything the invariant binds after the first reset is written, so it may be the first. -/
theorem coldrstBody_inv : (coldrstBody s).1.Inv := by
  rw [coldrstBody_eq]
  exact ⟨memoryOk_forgetRam (s := s.coldRegisters) h.memory, h.quiet, h.divisor, fun _ => remapped_mapCurrent _,
    fun _ => reindexed_remapped_indexCurrent _, fun _ => ⟨h.divisor, Nat.le_refl _⟩, fun _ => cardsOk_allOff rfl rfl⟩

theorem bankwrBody_inv {b : Bank} {p : Byte} (hp : p.toNat < b.pages) (o v : Byte) : (bankwrBody b p o v s).1.Inv :=
  h.of_memory rfl (memoryOk_storeCell h.memory hp o v)

theorem romloadBody_inv (hlen : s.env.romStream.length = 0x4000) : (romloadBody s).1.Inv :=
  h.of_memory rfl (memoryOk_storeBlock (b := .rom)
    (memoryOk_storeBlock (b := .crom) h.memory nofun (by simp [Bank.pages, hlen])) nofun (by simp [Bank.pages, hlen]))

end

/-! ## Accesses -/

/-- The parts of the invariant that bind what a listener chain, SUSPEND and RESUME change. -/
def State.mapAndCardsOk (s : State) : Prop := s.mapCurrent ∧ s.cardsOk

theorem perform_keeps {P : State → Prop} {i : Instr} {body : State → State × Word16} {s : State} (h : P s)
    (hb : P (body s).1) : P (perform i body s).1 := by
  rw [perform]
  split
  · exact hb
  · exact h

/-- What moves a switch or the latch inside a dispatch remaps (40_switches.md R94). -/
theorem runNested_mapCurrent (i : Instr) {s : State} (h : s.mapCurrent) : (runNested i s).1.mapCurrent := by
  have hremapped (t : State) : t.reconf.mapCurrent := by
    rw [reconf_eq_remapped]
    exact remapped_mapCurrent t
  cases i with
  | swset k v => exact perform_keeps h (hremapped _)
  | swtgl k => exact perform_keeps h (hremapped _)
  | slotsel n => exact perform_keeps h (hremapped _)
  | bankrd b p o =>
    refine perform_keeps h ?_
    rw [bankrdBody]
    split <;> exact h
  | swget | spdreq | spdrel => exact perform_keeps h h
  | _ => exact h

theorem mapAndCardsOk_stable : NestedStable State.mapAndCardsOk where
  call _ _ h := h
  answer _ _ _ h := h
  fresh _ h := h
  nested i s := fun ⟨hmap, hcards⟩ =>
    have hf := runNested_frame i s
    ⟨runNested_mapCurrent i hmap, cardsOk_congr hf.occ hf.cardrun hf.suspset hcards⟩

theorem mapAndCardsOk_suspendRun (s : State) (h : s.mapAndCardsOk) : s.suspendRun.mapAndCardsOk :=
  ⟨(suspendRun_frame s).mapCurrent h.1, cardsOk_suspendRun h.2⟩

theorem mapAndCardsOk_resumeRun (s : State) (h : s.mapAndCardsOk) : s.resumeRun.mapAndCardsOk :=
  ⟨(resumeRun_frame s).mapCurrent h.1, cardsOk_resumeRun h.2⟩

theorem mapAndCardsOk_storeThrough (s : State) (w : MapEntry) (o v : Byte) (h : s.mapAndCardsOk) :
    (s.storeThrough w o v).mapAndCardsOk := by
  rw [storeThrough_eq]
  exact h

/-- A write of a current map goes to a page its bank has (41_mmu.md R114). -/
theorem State.mapCurrent.writeEntry_page_lt {s : State} (h : s.mapCurrent) {p : Nat} (hp : p < 256) {r : PageRef}
    (hr : s.writeEntry p = some r) : r.page.toNat < r.bank.pages := by
  rw [h.writeEntry hp] at hr
  rcases closedWrite_none_or_ram s.mapInputs hp with hnone | ⟨i, hram, -⟩
  · rw [hnone] at hr
    cases hr
  · rw [hr] at hram
    obtain ⟨hvalid, -⟩ := hram.namesLivePage s.occ
    exact of_decide_eq_true (Bool.and_eq_true_iff.mp hvalid).1

theorem memoryOk_storeThrough {s : State} (h : s.memoryOk) {w : MapEntry}
    (hw : ∀ r, w = some r → r.page.toNat < r.bank.pages) (o v : Byte) : (s.storeThrough w o v).memoryOk := by
  cases w with
  | none => exact h
  | some r => exact memoryOk_storeCell h (hw r rfl) o v

theorem accessFrame.inv {s t : State} (hf : accessFrame s t) (h : s.Inv) (hm : t.memoryOk) (hp : t.mapAndCardsOk) :
    t.Inv := by
  obtain ⟨-, hlreg, hpidx, hridx, -, hdivcnt, hbooted, hdispatch, -, hparams, -, -⟩ := hf
  obtain ⟨hmap, hcards⟩ := hp
  refine ⟨hm, hdispatch.trans h.quiet, ?_, fun _ => hmap, fun hb => ?_, fun hb => ?_, fun _ => hcards⟩
  · rw [hparams]; exact h.divisor
  · rw [State.indexCurrent, hpidx, hridx, hlreg]; exact h.index (hbooted ▸ hb)
  · rw [State.clockOk, hdivcnt, hparams]; exact h.clock (hbooted ▸ hb)

section
variable {s : State} (h : s.Inv) (hb : s.booted = true)
include h hb

theorem readByte_inv (kind : ReadKind) (evt sync : Bool) (addr : Addr) : (readByte kind evt sync addr s).1.Inv := by
  refine (readByte_effect kind evt sync addr s).frame.inv h ?_ ?_
  · rw [State.memoryOk, (readByte_frame kind evt sync addr s).mem]
    exact h.memory
  · exact readByte_keeps mapAndCardsOk_stable (fun _ _ ht => ht) mapAndCardsOk_suspendRun mapAndCardsOk_resumeRun
      ⟨h.map hb, h.cards hb⟩

/-- The chain stores nothing, and the entry sampled before it is one of a current map. -/
theorem writeByte_inv (evt sync : Bool) (addr : Addr) (value : Byte) : (writeByte evt sync addr value s).1.Inv := by
  refine (writeByte_effect evt sync addr value s).frame.inv h ?_ ?_
  · have hchain : (writeChain evt sync addr value s).1.memoryOk := by
      rw [State.memoryOk, (writeChain_frame evt sync addr value s).mem]
      exact h.memory
    rw [writeByte_eq]
    exact memoryOk_storeThrough hchain (fun r => (h.map hb).writeEntry_page_lt (pageOf_lt addr)) _ _
  · exact writeByte_keeps mapAndCardsOk_stable (fun _ _ ht => ht) mapAndCardsOk_suspendRun mapAndCardsOk_resumeRun
      mapAndCardsOk_storeThrough ⟨h.map hb, h.cards hb⟩

theorem effect_inv_of_access {i : Instr} {sync : Bool} (hi : accessSync i = some sync) : (effect i s).1.Inv := by
  cases i with
  | rd kind evt y addr => exact readByte_inv h hb kind evt y addr
  | wr evt y addr v => exact writeByte_inv h hb evt y addr v
  | rdw kind evt y addr =>
    exact readByte_inv (readByte_inv h hb kind evt y addr)
      ((readByte_registryFrame kind evt y addr s).booted.trans hb) kind evt y _
  | wrw evt y addr d =>
    exact writeByte_inv (writeByte_inv h hb evt y addr _)
      ((writeByte_registryFrame evt y addr _ s).booted.trans hb) evt y _ _
  | _ => cases hi

theorem runAccess_inv (a : Access) : (runAccess a s).1.Inv := by
  rw [← effect_access]
  exact effect_inv_of_access h hb (accessSync_access a)

end

theorem runAccess_booted (a : Access) (s : State) : (runAccess a s).1.booted = s.booted := by
  rw [← effect_access]
  exact (effect_of_access (accessSync_access a) s).booted

/-! ## TICK (45_scheduler.md R160) -/

theorem runAccesses_inv (as : List Access) {s : State} (h : s.Inv) (hb : s.booted = true) : (runAccesses as s).Inv := by
  induction as generalizing s with
  | nil => exact h
  | cons a as ih => exact ih ((runAccess_inv h hb a).log _) ((runAccess_booted a s).trans hb)

theorem runTickStep_inv (k : TickTarget) (p : TickStep) {s : State} (h : s.Inv) (hb : s.booted = true) :
    (runTickStep k p s).Inv :=
  runAccesses_inv p.made (h.log (.tick k)) hb

theorem runTickSteps_inv (ps : List (TickTarget × TickStep)) {s : State} (h : s.Inv) (hb : s.booted = true) :
    (runTickSteps ps s).Inv := by
  induction ps generalizing s with
  | nil => exact h
  | cons p ps ih =>
    exact ih (runTickStep_inv p.1 p.2 h hb) ((runTickStep_registryFrame p.1 p.2 s).booted.trans hb)

theorem State.Inv.setDivcnt {s : State} (h : s.Inv) {d : Nat} (hd : 1 ≤ d ∧ d ≤ s.params.clockDivisor) :
    (s.setDivcnt d).Inv :=
  ⟨h.memory, h.quiet, h.divisor, h.map, h.index, fun _ => hd, h.cards⟩

/-- DIVCNT counts down and starts again from CLOCK_DIVISOR. -/
theorem tickBody_inv {s : State} (h : s.Inv) (hb : s.booted = true) : (tickBody s).1.Inv := by
  have hframe := runTickStep_registryFrame .cpu s.env.ticks.cpu s
  have hcpu := runTickStep_inv .cpu s.env.ticks.cpu h hb
  generalize ht : runTickStep .cpu s.env.ticks.cpu s = t at hframe hcpu
  have hbooted : t.booted = true := hframe.booted.trans hb
  by_cases hexpiry : t.divcnt ≤ 1
  · rw [tickBody_of_expiry ht hexpiry,
      tickDevices_eq_runTickSteps s (t := t.setDivcnt t.params.clockDivisor) hframe.occ]
    exact runTickSteps_inv _ (hcpu.setDivcnt ⟨hcpu.divisor, Nat.le_refl _⟩) hbooted
  · rw [tickBody_of_no_expiry ht hexpiry]
    obtain ⟨-, hmax⟩ := hcpu.clock hbooted
    exact hcpu.setDivcnt ⟨by omega, by omega⟩

/-! ## Every transaction and every step -/

/-- What acceptance gives an effect: of 60_exceptions.md R175 its cases (1), (2) and (5). -/
theorem accepted_gives {i : Instr} {s : State} (h : accepted i s = true) :
    i.wellFormed = true ∧ (allowedBeforeReset i = false → s.booted = true) ∧ ownPrecondition s i = true := by
  simp only [accepted, Bool.and_eq_true, Bool.or_eq_true] at h
  obtain ⟨⟨⟨⟨hw, hb⟩, -⟩, -⟩, ho⟩ := h
  exact ⟨hw, fun hi => hb.resolve_right (by rw [hi]; decide), ho⟩

theorem effect_inv {i : Instr} {s : State} (h : s.Inv) (ha : accepted i s = true) : (effect i s).1.Inv := by
  obtain ⟨hw, hb, ho⟩ := accepted_gives ha
  cases i with
  | rd | wr | rdw | wrw => exact effect_inv_of_access h (hb rfl) rfl
  | swget | mapq => exact h
  | swset | swtgl | swrst => exact h.reconf _ s.asl
  | reconf => exact h.reconf s.sw s.asl
  | slotsel n => exact h.reconf s.sw n
  | bankrd b p o =>
    simp only [effect, bankrdBody]
    split
    · exact h.nextFresh
    · exact h
  | bankwr b p o v => exact bankwrBody_inv h (of_decide_eq_true hw) o v
  | catt n => exact cattBody_inv h (Bool.eq_false_of_not_eq_true' ho)
  | cdet n => exact cdetBody_inv h n
  | crecfg n => exact crecfgBody_inv h n
  | ladd | lrem => exact h.reindexed _
  | tick => exact tickBody_inv h (hb rfl)
  | pause => exact h.pauseRun
  | resume => exact h.resumeRun
  | suspend => exact h.suspendRun
  | start => exact startBody_inv h
  | stop => exact stopBody_inv h
  | spdreq | spdrel => exact h.setSpeed _
  | coldrst => exact coldrstBody_inv h
  | warmrst => exact warmrstBody_inv h
  | romload => exact romloadBody_inv h ((ownPrecondition_romload_iff s).mp ho).1

theorem exec_inv {i : Instr} {s t : State} (h : s.Inv) (ht : exec i s = .next t) : t.Inv := by
  rw [exec_eq_effect] at ht
  rcases transact_cases ht with ⟨ha, ht⟩ | ⟨-, ht⟩
  · cases ht
    exact (effect_inv h.clearEvents (by rwa [accepted_clearEvents])).respond _
  · cases ht
    exact h.clearEvents.respond _

/-- Settles O60: a step runs a transaction, or refuses a word, from the state with the request taken. -/
theorem everyStepKeepsTheInvariant : Obligations.EveryStepKeepsTheInvariant := by
  intro s t h hstep
  cases hp : s.pending with
  | nil =>
    rw [step, hp] at hstep
    cases hstep
    exact h
  | cons r rest =>
    cases hd : decode r.word with
    | ok i =>
      rw [step_of_decode_ok hp hd] at hstep
      exact exec_inv (h.take r rest) hstep
    | error e =>
      rw [step_of_decode_error hp hd] at hstep
      cases hstep
      exact (h.take r rest).clearEvents.respond _

end Sys2Proof.Machine
end
